-- ==== Sys2Proof/Word.lean ====
section
/-! DEFINITION. The words of the block: a 64-bit data value (00_scope.md R10), a byte, a 32-bit command word
(30_encoding.md R90), and the reader destination field (30_encoding.md R94). -/

namespace Sys2Proof

/-- A 64-bit unsigned data value or register (00_scope.md R10, 10_state.md R23). -/
abbrev Word := BitVec 64

/-- One byte of key memory (00_scope.md R10). -/
abbrev Byte := BitVec 8

/-- A command word (30_encoding.md R90). -/
abbrev CmdWord := BitVec 32

/-- The DST field: which register a reader command writes (30_encoding.md R94). -/
inductive Dst where
  | a
  | b
deriving DecidableEq, Repr

end Sys2Proof
end

