-- ==== Sys2Proof/Config.lean ====
section
/-! DEFINITION. What an implementation fixes (the parameters KMEM_SIZE, BLOCK_BASE and IRQ_LINE) and the free values
the spec leaves open. A parameter is a field of State, so a statement about every state is about every legal value. -/

namespace Sys2Proof

/-- The block's parameters. Only legal values can be written down: KMEM_SIZE is a power of two from 64 to 65536
(00_scope.md R7), BLOCK_BASE a multiple of 0x20000 (R8); IRQ_LINE is the host interrupt number (60_exceptions.md R201).
See notes/assumptions/8.md. -/
structure Params where
  /-- KMEM_SIZE is `64 * 2 ^ kmemExp`. -/
  kmemExp   : Fin 11
  /-- BLOCK_BASE is `0x20000 * blockSlot`. -/
  blockSlot : Nat
  /-- IRQ_LINE. -/
  irqLine   : Nat
deriving DecidableEq, Repr

/-- KMEM_SIZE in bytes (00_scope.md R7). -/
def Params.kmemSize (p : Params) : Nat := 64 * 2 ^ p.kmemExp.val

/-- BLOCK_BASE, the physical address of the window (00_scope.md R8). -/
def Params.blockBase (p : Params) : Nat := 0x20000 * p.blockSlot

/-- The spec's default KMEM_SIZE of 16384 bytes (00_scope.md R7); BLOCK_BASE 0 and IRQ_LINE 0 are DESIGN CHOICEs
(notes/assumptions/8.md). -/
def Params.default : Params := { kmemExp := 8, blockSlot := 0, irqLine := 0 }

/-- FREE VALUE. The byte at key offset `i` after the power-on numbered `k`, until it is written
(70_reset_and_hazards.md R220: "a model draws each byte independently"). See notes/assumptions/5.md. -/
opaque Config.powerOnByte (k i : Nat) : Byte

/-- FREE VALUE. What the `k`-th unspecified host read returns (70_reset_and_hazards.md R230). See
notes/assumptions/6.md. -/
opaque Config.unspecified (k : Nat) : Word

end Sys2Proof
end

