-- ==== Sys2Proof/Syntax.lean ====
section
/-! DEFINITION. The command set: one constructor per row of spec/opcode_table.json (30_encoding.md R92). -/

namespace Sys2Proof

/-- The 15 commands (30_encoding.md R92), with the fields each one decodes (R94, R95). -/
inductive Instr where
  | nop
  | mum
  | mix
  | rd8 (d : Dst)
  | rd4 (d : Dst)
  | rd3 (d : Dst) (k : BitVec 2)
  | hinit
  | hchunk
  | hfold
  | htail
  | hfinal
  | hash
  | mulmod
  | powmod
  | prime
deriving DecidableEq, Repr

end Sys2Proof
end

