-- ==== Sys2Proof/WellFormed.lean ====
section
/-! DEFINITION. Which instruction terms a legal command word can spell: RD3's K is 1, 2 or 3 (30_encoding.md R95,
R97 point 5); every other field value is legal. -/

namespace Sys2Proof

/-- A term some legal command word spells (30_encoding.md R97). -/
def Instr.wellFormed : Instr → Bool
  | .nop => true
  | .mum => true
  | .mix => true
  | .rd8 _ => true
  | .rd4 _ => true
  | .rd3 _ k => k != 0
  | .hinit => true
  | .hchunk => true
  | .hfold => true
  | .htail => true
  | .hfinal => true
  | .hash => true
  | .mulmod => true
  | .powmod => true
  | .prime => true

end Sys2Proof
end

