-- ==== Sys2Proof/Decode.lean ====
section
/-! DEFINITION. The decoder, total on every 32-bit command word and rejecting by name (30_encoding.md R91, R97, R99),
then the encoder, written from the word formula and the opcode map (30_encoding.md R92, R100). -/

namespace Sys2Proof

/-- Why a command word is illegal: the five points of 30_encoding.md R97. -/
inductive Reject where
  /-- Point 1: OPC is none of the 15 values of R92. -/
  | opcode
  /-- Point 2: RSV is not zero. -/
  | reserved
  /-- Point 3: DST = 1 and OPC is not RD8, RD4 or RD3. -/
  | dstUnused
  /-- Point 4: K is not zero and OPC is not RD3. -/
  | kUnused
  /-- Point 5: K = 0 and OPC is RD3. -/
  | kZero
deriving DecidableEq, Repr

/-- OPC, bits 7:0 (30_encoding.md R91). -/
def fieldOpc (w : CmdWord) : BitVec 8 := w.extractLsb' 0 8

/-- DST, bit 8 (30_encoding.md R91). -/
def fieldDst (w : CmdWord) : Bool := w.getLsbD 8

/-- K, bits 10:9 (30_encoding.md R91). -/
def fieldK (w : CmdWord) : BitVec 2 := w.extractLsb' 9 2

/-- RSV, bits 31:11 (30_encoding.md R91). -/
def fieldRsv (w : CmdWord) : BitVec 21 := w.extractLsb' 11 21

/-- DST = 0 names A, DST = 1 names B (30_encoding.md R94). -/
def dstOfBit (bit : Bool) : Dst := if bit then .b else .a

/-- A command with no field beside OPC: DST and K must be 0 (30_encoding.md R97 points 3 and 4). -/
def decodePlain (i : Instr) (dst : Bool) (k : BitVec 2) : Except Reject Instr :=
  if dst = true then .error .dstUnused else if k ≠ 0 then .error .kUnused else .ok i

/-- RD8 and RD4: DST is decoded, K must be 0 (30_encoding.md R94, R97 point 4). -/
def decodeReader (mk : Dst → Instr) (dst : Bool) (k : BitVec 2) : Except Reject Instr :=
  if k ≠ 0 then .error .kUnused else .ok (mk (dstOfBit dst))

/-- RD3: DST and K are decoded, K must not be 0 (30_encoding.md R95, R97 point 5). -/
def decodeRd3 (dst : Bool) (k : BitVec 2) : Except Reject Instr :=
  if k = 0 then .error .kZero else .ok (.rd3 (dstOfBit dst) k)

/-- The opcode map (30_encoding.md R92) over the fields OPC, DST and K of a word whose RSV is zero. -/
def decodeFields (opc : BitVec 8) (dst : Bool) (k : BitVec 2) : Except Reject Instr :=
  if opc = 0x00 then decodePlain .nop dst k
  else if opc = 0x01 then decodePlain .mum dst k
  else if opc = 0x02 then decodePlain .mix dst k
  else if opc = 0x10 then decodeReader .rd8 dst k
  else if opc = 0x11 then decodeReader .rd4 dst k
  else if opc = 0x12 then decodeRd3 dst k
  else if opc = 0x20 then decodePlain .hinit dst k
  else if opc = 0x21 then decodePlain .hchunk dst k
  else if opc = 0x22 then decodePlain .hfold dst k
  else if opc = 0x23 then decodePlain .htail dst k
  else if opc = 0x24 then decodePlain .hfinal dst k
  else if opc = 0x2F then decodePlain .hash dst k
  else if opc = 0x30 then decodePlain .mulmod dst k
  else if opc = 0x31 then decodePlain .powmod dst k
  else if opc = 0x32 then decodePlain .prime dst k
  else .error .opcode

/-- The command a word spells, or the reason it is illegal (30_encoding.md R92, R97, R99). -/
def decode (w : CmdWord) : Except Reject Instr :=
  if fieldRsv w ≠ 0 then .error .reserved else decodeFields (fieldOpc w) (fieldDst w) (fieldK w)

/-- The command a word spells, if it is legal. -/
def decode? (w : CmdWord) : Option Instr :=
  match decode w with
  | .ok i => some i
  | .error _ => none

/-- The OPC value of a command (30_encoding.md R92). -/
def Instr.opc : Instr → CmdWord
  | .nop => 0x00
  | .mum => 0x01
  | .mix => 0x02
  | .rd8 _ => 0x10
  | .rd4 _ => 0x11
  | .rd3 _ _ => 0x12
  | .hinit => 0x20
  | .hchunk => 0x21
  | .hfold => 0x22
  | .htail => 0x23
  | .hfinal => 0x24
  | .hash => 0x2F
  | .mulmod => 0x30
  | .powmod => 0x31
  | .prime => 0x32

/-- The DST value of a destination (30_encoding.md R94). -/
def Dst.bit : Dst → CmdWord
  | .a => 0
  | .b => 1

/-- The DST field of a command, 0 where it has none (30_encoding.md R91). -/
def Instr.dstField : Instr → CmdWord
  | .rd8 d => d.bit
  | .rd4 d => d.bit
  | .rd3 d _ => d.bit
  | .nop | .mum | .mix | .hinit | .hchunk | .hfold | .htail | .hfinal | .hash | .mulmod | .powmod | .prime => 0

/-- The K field of a command, 0 where it has none (30_encoding.md R91). -/
def Instr.kField : Instr → CmdWord
  | .rd3 _ k => k.setWidth 32
  | .nop | .mum | .mix | .rd8 _ | .rd4 _ | .hinit | .hchunk | .hfold | .htail | .hfinal | .hash | .mulmod | .powmod
  | .prime => 0

/-- The command word of a command: "The word is `OPC | (DST << 8) | (K << 9)`" (30_encoding.md R100). -/
def encode (i : Instr) : CmdWord := i.opc ||| (i.dstField <<< 8) ||| (i.kField <<< 9)

/-- The 32-bit word that a table word of `nbits` bits stands for: one host write delivers bits 31:0 of the word, so
the numbering of the table is that of the command word itself (30_encoding.md R90, R99; 20_memory.md R61). -/
def tableWord (nbits w : Nat) : CmdWord := BitVec.ofNat 32 (w % 2 ^ nbits)

/-- What the decoder reads from an instruction whose bits are `w`; no instruction is longer than 32 bits
(30_encoding.md R99). -/
def decodeTableWord (nbits w : Nat) : Option Instr := decode? (tableWord nbits w)

end Sys2Proof
end

