-- ==== Sys2Proof/Machine/State.lean ====
section
/-! DEFINITION. The state of the block (10_state.md), held as plain data, the reasons a step can stop, and the state
after power-on reset (70_reset_and_hazards.md R220). INVENTORY.md lists every field beside the rule that names it. -/

namespace Sys2Proof.Machine

/-- The block never gets stuck and has no bus error (60_exceptions.md R213, 00_scope.md R15): every command error is
recorded in STATUS and ERRINFO and the machine goes on. So no step ends in a fault and the type has no value (safe:
there is nothing a claim could lean on). -/
inductive Fault where
deriving DecidableEq, Repr

/-- Why an instruction has no meaning. -/
inductive Refusal where
  /-- Raised by an arm of `exec` whose instruction is not modelled yet (safe: the machine stops). No arm is left. -/
  | notModelled (mnemonic : String)
deriving DecidableEq, Repr

/-- HPHASE, the hash sequencer's phase (10_state.md R41). The value 3 is "never produced". -/
inductive Phase where
  | none
  | chunk
  | tail
deriving DecidableEq, Repr

/-- The Secret, "an ordered 4-tuple of 64-bit unsigned integers" (10_state.md R33): registers S0 to S3. -/
structure Secret where
  s0 : Word
  s1 : Word
  s2 : Word
  s3 : Word
deriving DecidableEq, Repr

/-- The hash unit's own registers: the digest (10_state.md R38), the accumulator file (R39), the sequencer's position
(R40) and its phase (R41). -/
structure HashUnit where
  h     : Word
  acc0  : Word
  acc1  : Word
  acc2  : Word
  ptr   : Word
  rem   : Word
  hbase : Word
  hlen  : Word
  phase : Phase
deriving DecidableEq, Repr

/-- The written bytes of KMEM, in one canonical form: key offsets strictly rising (`Memory.wf`). An unlisted offset
holds no written value. See notes/assumptions/5.md. -/
abbrev Memory := List Host.Cell

/-- One host bus access at a physical address, `bytes` bytes wide (20_memory.md R67, R68, R70). A write's data are the
low `8 * bytes` bits of `data` (notes/assumptions/19.md). -/
inductive Access where
  | read (addr bytes : Nat)
  | write (addr bytes : Nat) (data : Word)
deriving DecidableEq, Repr

/-- Which agent moves next (00_scope.md R14): the HOST with an access, or the ENGINE. Power-on reset comes from outside
both (70_reset_and_hazards.md R220). See notes/assumptions/1.md and 10.md. -/
inductive Turn where
  | host (access : Access)
  | engine
  | powerOn
deriving DecidableEq, Repr

/-- The state of the block. -/
structure State where
  /-- KMEM_SIZE, BLOCK_BASE and IRQ_LINE: fixed for the block, changed by no step. -/
  params   : Params
  /-- CTRL bit 0 (10_state.md R26). -/
  ieDone   : Bool
  /-- CTRL bit 1 (10_state.md R26). -/
  ieErr    : Bool
  /-- STATUS bit 1 (10_state.md R28). -/
  done     : Bool
  /-- STATUS bit 2 (10_state.md R28). -/
  err      : Bool
  /-- STATUS bits 15:8 (10_state.md R28). -/
  errcode  : BitVec 8
  /-- ERRINFO (10_state.md R31). -/
  errinfo  : Word
  /-- CUR, the in-flight command word (10_state.md R42); STATUS.BUSY is whether it holds one. -/
  cur      : Option CmdWord
  /-- OFF (10_state.md R32). -/
  off      : Word
  /-- A (10_state.md R34). -/
  a        : Word
  /-- B (10_state.md R34). -/
  b        : Word
  /-- N (10_state.md R35). -/
  n        : Word
  /-- S0 to S3 (10_state.md R33). -/
  secret   : Secret
  /-- SEED (10_state.md R36). -/
  seed     : Word
  /-- KOFF (10_state.md R37). -/
  koff     : Word
  /-- LEN (10_state.md R37). -/
  len      : Word
  /-- H, ACC0 to ACC2, PTR, REM, HBASE, HLEN and HPHASE (10_state.md R38 to R41). -/
  hash     : HashUnit
  /-- The bytes of KMEM written since power-on (10_state.md R43). -/
  kmem     : Memory
  /-- The model's own: which power-on draw of KMEM is in force (notes/assumptions/5.md). -/
  powerOns : Nat
  /-- The model's own: how many unspecified reads have been answered (notes/assumptions/6.md). -/
  draws    : Nat
  /-- The model's own: the turns still to come, first one first (notes/assumptions/1.md). -/
  agenda   : List Turn
  /-- The model's own: the value the last host read returned (notes/assumptions/3.md). -/
  hostData : Word
deriving DecidableEq, Repr

/-- The default secret, the reset value of S0 to S3 (10_state.md R33; notes/assumptions/16.md). -/
def Secret.default : Secret :=
  { s0 := 0x2d358dccaa6c78a5, s1 := 0x8bb84b93962eacc9, s2 := 0x4b33a62ed433d4a3, s3 := 0x4d5a2da51de1aa47 }

/-- The hash unit after reset: every register 0, HPHASE NONE (10_state.md R38 to R41). -/
def HashUnit.reset : HashUnit :=
  { h := 0, acc0 := 0, acc1 := 0, acc2 := 0, ptr := 0, rem := 0, hbase := 0, hlen := 0, phase := .none }

/-- The block right after power-on reset (70_reset_and_hazards.md R220), with the default parameters
(00_scope.md R7; notes/assumptions/8.md) and no turn placed (notes/assumptions/14.md). -/
def State.reset : State :=
  { params := Params.default
    ieDone := false
    ieErr := false
    done := false
    err := false
    errcode := 0
    errinfo := 0
    cur := Option.none
    off := 0
    a := 0
    b := 0
    n := 0
    secret := Secret.default
    seed := 0
    koff := 0
    len := 0
    hash := HashUnit.reset
    kmem := []
    powerOns := 0
    draws := 0
    agenda := []
    hostData := 0 }

end Sys2Proof.Machine
end

