-- ==== Sys2Proof/Machine/Flags.lean ====
section
/-! DEFINITION. The flags: STATUS and CTRL as words (10_state.md R26, R28), BUSY, the error codes (60_exceptions.md
R198), and the interrupt output (60_exceptions.md R200, R201). The block has no arithmetic flags (10_state.md R46). -/

namespace Sys2Proof.Machine

/-- The error codes (60_exceptions.md R198). -/
inductive ErrCode where
  /-- EILLEGAL (R191). -/
  | illegal
  /-- EBOUNDS (R192). -/
  | bounds
  /-- EBUSY (R193). -/
  | busy
  /-- EMODZERO (R194). -/
  | modZero
  /-- ESEQ (R195). -/
  | seq
deriving DecidableEq, Repr

/-- The ERRCODE value of an error (60_exceptions.md R198). -/
def ErrCode.code : ErrCode → BitVec 8
  | .illegal => 0x01
  | .bounds => 0x02
  | .busy => 0x03
  | .modZero => 0x04
  | .seq => 0x05

/-- The HPHASE field of a phase (10_state.md R41). -/
def Phase.bits : Phase → BitVec 2
  | .none => 0
  | .chunk => 1
  | .tail => 2

/-- STATUS.BUSY: a command is in flight exactly while CUR holds its word (10_state.md R42; 44_system.md R180, R181;
notes/assumptions/4.md). -/
def State.busy (s : State) : Bool := s.cur.isSome

/-- STATUS with the given HPHASE bits: ERRCODE 15:8, HPHASE 5:4, ERR 2, DONE 1, BUSY 0, every other bit 0
(10_state.md R28). -/
def State.statusWith (s : State) (phase : BitVec 2) : Word :=
  (0 : BitVec 48) ++ s.errcode ++ (0 : BitVec 2) ++ phase ++ (0 : BitVec 1) ++ BitVec.ofBool s.err ++
    BitVec.ofBool s.done ++ BitVec.ofBool s.busy

/-- STATUS (10_state.md R28). -/
def State.statusWord (s : State) : Word := s.statusWith s.hash.phase.bits

/-- CTRL: IE_ERR bit 1, IE_DONE bit 0, every other bit 0, SRST included (10_state.md R26). -/
def State.ctrlWord (s : State) : Word := (0 : BitVec 62) ++ BitVec.ofBool s.ieErr ++ BitVec.ofBool s.ieDone

/-- The interrupt output (60_exceptions.md R200). -/
def State.irq (s : State) : Bool := (s.done && s.ieDone) || (s.err && s.ieErr)

/-- The host interrupt the block asserts, if any: IRQ routed to IRQ_LINE (60_exceptions.md R201). -/
def State.irqRequest (s : State) : Option Nat := if s.irq then some s.params.irqLine else Option.none

end Sys2Proof.Machine
end

