-- ==== Sys2Proof/Machine/Operands.lean ====
section
/-! DEFINITION. Operand forms: the registers by name with their offsets (10_state.md R23), the implicit operands and
write sets of the commands (30_encoding.md R93), and how a host access selects a register half or a key byte
(20_memory.md R61, R67 to R70). -/

namespace Sys2Proof.Machine

/-- The registers of the window (10_state.md R23). -/
inductive Reg where
  | id | cfg | ctrl | status | cmd | errinfo | off | a | b | n | s0 | s1 | s2 | s3 | seed | koff | len | h
  | acc0 | acc1 | acc2 | ptr | rem | hbase | hlen
deriving DecidableEq, Repr

/-- Every register of the map, in the order of its table (10_state.md R23). -/
def Reg.all : List Reg :=
  [.id, .cfg, .ctrl, .status, .cmd, .errinfo, .off, .a, .b, .n, .s0, .s1, .s2, .s3, .seed, .koff, .len, .h,
   .acc0, .acc1, .acc2, .ptr, .rem, .hbase, .hlen]

/-- The window offset of a register (10_state.md R23). -/
def Reg.offset : Reg → Nat
  | .id => 0x000
  | .cfg => 0x008
  | .ctrl => 0x010
  | .status => 0x018
  | .cmd => 0x020
  | .errinfo => 0x028
  | .off => 0x030
  | .a => 0x040
  | .b => 0x048
  | .n => 0x050
  | .s0 => 0x060
  | .s1 => 0x068
  | .s2 => 0x070
  | .s3 => 0x078
  | .seed => 0x080
  | .koff => 0x088
  | .len => 0x090
  | .h => 0x098
  | .acc0 => 0x0A0
  | .acc1 => 0x0A8
  | .acc2 => 0x0B0
  | .ptr => 0x0B8
  | .rem => 0x0C0
  | .hbase => 0x0C8
  | .hlen => 0x0D0

/-- The register at a window offset, or none where the offset is reserved (10_state.md R23, 20_memory.md R69). -/
def regAt (o : Nat) : Option Reg := Reg.all.find? (fun r => r.offset == o)

/-- The registers a host write stores to, and that a busy write is dropped from (60_exceptions.md R197): OFF, A, B, N,
S0 to S3, SEED, KOFF and LEN. -/
def Reg.isInput : Reg → Bool
  | .off | .a | .b | .n | .s0 | .s1 | .s2 | .s3 | .seed | .koff | .len => true
  | .id | .cfg | .ctrl | .status | .cmd | .errinfo | .h | .acc0 | .acc1 | .acc2 | .ptr | .rem | .hbase | .hlen => false

/-- The register DST names (30_encoding.md R94). -/
def dstReg : Dst → Reg
  | .a => .a
  | .b => .b

end Sys2Proof.Machine

namespace Sys2Proof

open Sys2Proof.Machine in
/-- The registers of a command's write set (30_encoding.md R93), HPHASE apart (`Instr.writesPhase`). -/
def Instr.writes : Instr → List Reg
  | .nop => []
  | .mum => [.a, .b]
  | .mix => [.a]
  | .rd8 d => [dstReg d]
  | .rd4 d => [dstReg d]
  | .rd3 d _ => [dstReg d]
  | .hinit => [.acc0, .acc1, .acc2, .ptr, .rem, .hbase, .hlen]
  | .hchunk => [.acc0, .acc1, .acc2, .ptr, .rem]
  | .hfold => [.acc0]
  | .htail => [.acc0, .ptr, .rem]
  | .hfinal => [.h]
  | .hash => [.acc0, .acc1, .acc2, .ptr, .rem, .hbase, .hlen, .h]
  | .mulmod => [.a]
  | .powmod => [.a]
  | .prime => [.a]

/-- Whether HPHASE is in a command's write set (30_encoding.md R93). -/
def Instr.writesPhase : Instr → Bool
  | .hinit | .hfold | .hfinal | .hash => true
  | .nop | .mum | .mix | .rd8 _ | .rd4 _ | .rd3 _ _ | .hchunk | .htail | .mulmod | .powmod | .prime => false

end Sys2Proof

namespace Sys2Proof.Machine

/-- Which part of a 64-bit register an accepted access covers (20_memory.md R61). -/
inductive Lane where
  /-- A 64-bit access: bits 63:0. -/
  | full
  /-- A 32-bit access at the register's offset: bits 31:0. -/
  | low
  /-- A 32-bit access four bytes above it: bits 63:32. -/
  | high
deriving DecidableEq, Repr

/-- What a read through a lane returns of a register's value, zero-extended (20_memory.md R61). -/
def Lane.pick : Lane → Word → Word
  | .full, v => v
  | .low, v => (v.extractLsb' 0 32).setWidth 64
  | .high, v => (v.extractLsb' 32 32).setWidth 64

/-- A register's value after a write of `v` through a lane: the other half keeps its value (20_memory.md R67). -/
def Lane.put : Lane → (old v : Word) → Word
  | .full, _, v => v
  | .low, old, v => old.extractLsb' 32 32 ++ v.extractLsb' 0 32
  | .high, old, v => v.extractLsb' 0 32 ++ old.extractLsb' 0 32

/-- What an access inside the window reaches. -/
inductive Target where
  /-- A half or the whole of the register at `offset` (20_memory.md R67); `offset` is the access's own offset. -/
  | reg (r : Reg) (lane : Lane)
  /-- Key bytes from offset `i` on (20_memory.md R68). -/
  | kmem (i : Nat)
  /-- Nothing: a reserved offset (R69) or an access the block does not accept (R70). -/
  | nothing
deriving DecidableEq, Repr

/-- What an access of `bytes` bytes at window offset `o` of the register region reaches (20_memory.md R67). -/
def regTarget (o bytes : Nat) : Target :=
  if bytes = 8 ∧ o % 8 = 0 then
    match regAt o with
    | some r => .reg r .full
    | Option.none => .nothing
  else if bytes = 4 ∧ o % 8 = 0 then
    match regAt o with
    | some r => .reg r .low
    | Option.none => .nothing
  else if bytes = 4 ∧ o % 8 = 4 then
    match regAt (o - 4) with
    | some r => .reg r .high
    | Option.none => .nothing
  else .nothing

/-- The widths in bytes that a KMEM access may have (20_memory.md R68). -/
def kmemWidth (bytes : Nat) : Bool := bytes == 1 || bytes == 2 || bytes == 4 || bytes == 8

/-- What an access of `bytes` bytes at window offset `o` reaches (20_memory.md R67 to R70). -/
def target (p : Params) (o bytes : Nat) : Target :=
  if o < 0x1000 then regTarget o bytes
  else if 0x10000 ≤ o ∧ o < 0x10000 + p.kmemSize ∧ kmemWidth bytes = true ∧ o % bytes = 0 then .kmem (o - 0x10000)
  else .nothing

/-- The window offset of a physical address, or none outside the 128 KiB window (10_state.md R20). -/
def windowOffset (p : Params) (addr : Nat) : Option Nat :=
  if p.blockBase ≤ addr ∧ addr < p.blockBase + 0x20000 then some (addr - p.blockBase) else Option.none

end Sys2Proof.Machine
end

