-- ==== Sys2Proof/Machine/Ops.lean ====
section
/-! DEFINITION. The named operations over memory and registers, the command protocol (44_system.md R180, R181),
recording an error and taking a command fault (60_exceptions.md R190, R196), acknowledging it (R206), and the two
resets (70_reset_and_hazards.md R220, R222). -/

namespace Sys2Proof.Machine

/-! Key memory. -/

/-- The canonical form of KMEM's written bytes: key offsets strictly rising. -/
abbrev Memory.wf (m : Memory) : Prop := m.Pairwise (fun x y => x.1 < y.1)

/-- The byte written at key offset `i`, if any. -/
def Memory.find : Memory → Nat → Option Byte
  | [], _ => Option.none
  | (j, v) :: m, i => if i = j then some v else Memory.find m i

/-- Write one byte, keeping the canonical form. -/
def Memory.put : Memory → Nat → Byte → Memory
  | [], i, v => [(i, v)]
  | (j, w) :: m, i, v =>
    if i < j then (i, v) :: (j, w) :: m
    else if i = j then (i, v) :: m
    else (j, w) :: Memory.put m i v

/-- `MemWrite(i, n, v)`: byte `j` of `v` (bits 8j+7:8j) goes to key offset `i + j` (00_scope.md R13,
20_memory.md R62). -/
def Memory.store (m : Memory) (i : Nat) : (n : Nat) → (v : Word) → Memory
  | 0, _ => m
  | n + 1, v => (Memory.store m i n v).put (i + n) (v.extractLsb' (8 * n) 8)

/-- `KMEM[i]`: the byte last written there, or the power-on draw (10_state.md R43; notes/assumptions/5.md). -/
def State.kmemByte (s : State) (i : Nat) : Byte := (s.kmem.find i).getD (Config.powerOnByte s.powerOns i)

/-- `MemRead(x, n)`, the little-endian value of `n` consecutive key bytes: the sum over `j` of byte `x + j` shifted
left by `8 * j` (00_scope.md R13, 20_memory.md R63). -/
def memRead (bytes : Nat → Byte) (x : Nat) : Nat → Word
  | 0 => 0
  | n + 1 => memRead bytes x n + ((bytes (x + n)).setWidth 64 <<< (8 * n))

/-! Registers. -/

/-- The value a register holds (10_state.md R23): CMD reads 0, ID and CFG are constants (R24, R25). -/
def State.regValue (s : State) : Reg → Word
  | .id => 0x57594D5800070001
  | .cfg => BitVec.ofNat 64 s.params.kmemSize
  | .ctrl => s.ctrlWord
  | .status => s.statusWord
  | .cmd => 0
  | .errinfo => s.errinfo
  | .off => s.off
  | .a => s.a
  | .b => s.b
  | .n => s.n
  | .s0 => s.secret.s0
  | .s1 => s.secret.s1
  | .s2 => s.secret.s2
  | .s3 => s.secret.s3
  | .seed => s.seed
  | .koff => s.koff
  | .len => s.len
  | .h => s.hash.h
  | .acc0 => s.hash.acc0
  | .acc1 => s.hash.acc1
  | .acc2 => s.hash.acc2
  | .ptr => s.hash.ptr
  | .rem => s.hash.rem
  | .hbase => s.hash.hbase
  | .hlen => s.hash.hlen

/-- Store to an input register (10_state.md R32 to R37). A register that is none of them is left alone: CTRL, STATUS
and CMD have operations of their own, and the rest are read-only (R44). -/
def State.setReg (s : State) (r : Reg) (v : Word) : State :=
  match r with
  | .off => { s with off := v }
  | .a => { s with a := v }
  | .b => { s with b := v }
  | .n => { s with n := v }
  | .s0 => { s with secret := { s.secret with s0 := v } }
  | .s1 => { s with secret := { s.secret with s1 := v } }
  | .s2 => { s with secret := { s.secret with s2 := v } }
  | .s3 => { s with secret := { s.secret with s3 := v } }
  | .seed => { s with seed := v }
  | .koff => { s with koff := v }
  | .len => { s with len := v }
  | .id | .cfg | .ctrl | .status | .cmd | .errinfo | .h | .acc0 | .acc1 | .acc2 | .ptr | .rem | .hbase | .hlen => s

/-- Write the destination register of a reader command (30_encoding.md R94). -/
def State.setDst (s : State) (d : Dst) (v : Word) : State :=
  match d with
  | .a => { s with a := v }
  | .b => { s with b := v }

/-- Write A. -/
def State.setA (s : State) (v : Word) : State := { s with a := v }

/-- Write A and B together (40_mulmix.md R112). -/
def State.setAB (s : State) (va vb : Word) : State := { s with a := va, b := vb }

/-- Replace the hash unit's registers. -/
def State.setHash (s : State) (u : HashUnit) : State := { s with hash := u }

/-- `MemWrite(i, n, v)` on KMEM (20_memory.md R62). -/
def State.storeKmem (s : State) (i n : Nat) (v : Word) : State := { s with kmem := s.kmem.store i n v }

/-! The command protocol. -/

/-- CUR as a number; 0 where no command is in flight, which no step of the engine meets (notes/assumptions/12.md). -/
def State.curWord (s : State) : CmdWord := s.cur.getD 0

/-- Issue of a command word: CUR, BUSY and DONE (44_system.md R180). -/
def State.issue (s : State) (w : CmdWord) : State := { s with cur := some w, done := false }

/-- The end of every completion: BUSY 0, DONE 1, CUR discarded (44_system.md R181). -/
def State.complete (s : State) : State := { s with cur := Option.none, done := true }

/-- A command that ends without fault: its writes are committed and the command completes (44_system.md R181). -/
def commit (s : State) : Host.Outcome State Fault Refusal := .next s.complete

/-! Errors. -/

/-- Record an error: ERR, ERRCODE and ERRINFO are written only where ERR was 0, so the first error wins
(60_exceptions.md R190). -/
def State.recordError (s : State) (e : ErrCode) (info : Word) : State :=
  { s with
    err := true
    errcode := if s.err then s.errcode else e.code
    errinfo := if s.err then s.errinfo else info }

/-- TAKING A COMMAND FAULT, `raise E(cmdword)`: no register of the write set is written, the error is recorded with
`zext_64(CUR)`, and the command completes (60_exceptions.md R196). -/
def takeFault (e : ErrCode) (s : State) : Host.Outcome State Fault Refusal :=
  .next (s.recordError e (s.curWord.setWidth 64)).complete

/-- ERRINFO of a dropped busy write at window offset `o`: `(1 << 63) or zext_64(offset)` (60_exceptions.md R193). -/
def busyInfo (o : Nat) : Word := ((1 : Word) <<< 63) ||| BitVec.ofNat 64 o

/-- A write dropped because a command is in flight (60_exceptions.md R197). -/
def State.dropBusy (s : State) (o : Nat) : State := s.recordError .busy (busyInfo o)

/-- A host write of `v` to STATUS: bit 1 clears DONE; bit 2 clears ERR and ERRCODE and keeps ERRINFO, which is the
return from an error (10_state.md R29, 60_exceptions.md R206). -/
def State.writeStatus (s : State) (v : Word) : State :=
  { s with
    done := s.done && !v.getLsbD 1
    err := s.err && !v.getLsbD 2
    errcode := if v.getLsbD 2 then 0 else s.errcode }

/-! Reset. -/

/-- Soft reset: every register takes its reset value, an in-flight command is abandoned, KMEM keeps its contents
(70_reset_and_hazards.md R222). -/
def State.softReset (s : State) : State :=
  { State.reset with
    params := s.params
    kmem := s.kmem
    powerOns := s.powerOns
    draws := s.draws
    agenda := s.agenda
    hostData := s.hostData }

/-- Power-on reset: as soft reset, and KMEM's contents are drawn anew (70_reset_and_hazards.md R220;
notes/assumptions/10.md). -/
def State.powerOn (s : State) : State :=
  { State.reset with
    params := s.params
    powerOns := s.powerOns + 1
    draws := s.draws
    agenda := s.agenda
    hostData := s.hostData }

/-- A host write of `v` to CTRL: with bit 2 set a soft reset, else bits 1:0 are stored (10_state.md R26, R27). -/
def State.writeCtrl (s : State) (v : Word) : State :=
  if v.getLsbD 2 then s.softReset else { s with ieDone := v.getLsbD 0, ieErr := v.getLsbD 1 }

/-! The model's own bookkeeping. -/

/-- One unspecified read has been answered (notes/assumptions/6.md). -/
def State.countDraw (s : State) : State := { s with draws := s.draws + 1 }

/-- A host read returns `v` (notes/assumptions/3.md). -/
def State.answer (s : State) (v : Word) : State := { s with hostData := v }

/-- The turns left after the first (notes/assumptions/1.md). -/
def State.setAgenda (s : State) (turns : List Turn) : State := { s with agenda := turns }

end Sys2Proof.Machine
end

