-- ==== Sys2Proof/Machine/Mulmix.lean ====
section
/-! DEFINITION. The multiply-mix family: MUM and MIX (40_mulmix.md). -/

namespace Sys2Proof.Machine

/-- `mum(a, b)`: the low and the high half of the exact 128-bit product (40_mulmix.md R110). -/
def mum (a b : Word) : Word × Word :=
  (BitVec.ofNat 64 (a.toNat * b.toNat), BitVec.ofNat 64 (a.toNat * b.toNat / 2 ^ 64))

/-- `mix(a, b)`: the exclusive or of the two halves of the product (40_mulmix.md R111). -/
def mix (a b : Word) : Word := (mum a b).1 ^^^ (mum a b).2

/-- MUM (40_mulmix.md R112). -/
def execMum (s : State) : Host.Outcome State Fault Refusal := commit (s.setAB (mum s.a s.b).1 (mum s.a s.b).2)

/-- MIX (40_mulmix.md R113). -/
def execMix (s : State) : Host.Outcome State Fault Refusal := commit (s.setA (mix s.a s.b))

end Sys2Proof.Machine
end

