-- ==== Sys2Proof/Machine/Readers.lean ====
section
/-! DEFINITION. The byte-window reader family: RD8, RD4 and RD3 (41_readers.md). The functions take the key bytes as a
function of the key offset, so that the hash family and the reference hash share them. -/

namespace Sys2Proof.Machine

/-- `read8(x)`: 8 bytes, little-endian (41_readers.md R120). -/
def read8 (bytes : Nat → Byte) (x : Nat) : Word := memRead bytes x 8

/-- `read4(x)`: 4 bytes, little-endian, zero-extended (41_readers.md R121). -/
def read4 (bytes : Nat → Byte) (x : Nat) : Word := memRead bytes x 4

/-- `read3(x, k)`: the first byte above byte `k >> 1` above byte `k - 1` (41_readers.md R122; 90_conflicts.md C2). -/
def read3 (bytes : Nat → Byte) (x k : Nat) : Word :=
  ((bytes x).setWidth 64 <<< 16) ||| ((bytes (x + k / 2)).setWidth 64 <<< 8) ||| (bytes (x + k - 1)).setWidth 64

/-- A reader command of `width` bytes: EBOUNDS where the bytes do not all lie in KMEM, the sum taken without
wrap-around, else the destination register is written (41_readers.md R123 to R125). -/
def readInto (d : Dst) (width : Nat) (v : Word) (s : State) : Host.Outcome State Fault Refusal :=
  if s.off.toNat + width > s.params.kmemSize then takeFault .bounds s else commit (s.setDst d v)

/-- RD8 (41_readers.md R123). -/
def execRd8 (d : Dst) (s : State) : Host.Outcome State Fault Refusal :=
  readInto d 8 (read8 s.kmemByte s.off.toNat) s

/-- RD4 (41_readers.md R124). -/
def execRd4 (d : Dst) (s : State) : Host.Outcome State Fault Refusal :=
  readInto d 4 (read4 s.kmemByte s.off.toNat) s

/-- RD3 (41_readers.md R125). K = 0 is no legal word and faults with EILLEGAL (30_encoding.md R97;
notes/assumptions/11.md). -/
def execRd3 (d : Dst) (k : BitVec 2) (s : State) : Host.Outcome State Fault Refusal :=
  if k = 0 then takeFault .illegal s
  else readInto d k.toNat (read3 s.kmemByte s.off.toNat k.toNat) s

end Sys2Proof.Machine
end

