-- ==== Sys2Proof/Machine/Hash.lean ====
section
/-! DEFINITION. The hash accumulator family: HINIT, HCHUNK, HFOLD, HTAIL, HFINAL and HASH (42_hash.md). Each step's
body is a function of the hash unit, the key bytes and the Secret, so that HASH runs the same bodies (R137). Offsets
are natural numbers (R134; notes/assumptions/13.md). -/

namespace Sys2Proof.Machine

/-- The body of HINIT (42_hash.md R130); H keeps its value. -/
def initBody (sec : Secret) (seed koff len : Word) (u : HashUnit) : HashUnit :=
  let t := seed ^^^ mix (seed ^^^ sec.s0) sec.s1
  { u with acc0 := t, acc1 := t, acc2 := t, hbase := koff, hlen := len, ptr := koff, rem := len, phase := .chunk }

/-- The body of HCHUNK (42_hash.md R131). -/
def chunkBody (bytes : Nat → Byte) (sec : Secret) (u : HashUnit) : HashUnit :=
  let p := u.ptr.toNat
  { u with
    acc0 := mix (read8 bytes p ^^^ sec.s1) (read8 bytes (p + 8) ^^^ u.acc0)
    acc1 := mix (read8 bytes (p + 16) ^^^ sec.s2) (read8 bytes (p + 24) ^^^ u.acc1)
    acc2 := mix (read8 bytes (p + 32) ^^^ sec.s3) (read8 bytes (p + 40) ^^^ u.acc2)
    ptr := u.ptr + 48
    rem := u.rem - 48 }

/-- The body of HFOLD (42_hash.md R132). -/
def foldBody (u : HashUnit) : HashUnit :=
  { u with acc0 := u.acc0 ^^^ u.acc1 ^^^ u.acc2, phase := .tail }

/-- The body of HTAIL (42_hash.md R133). -/
def tailBody (bytes : Nat → Byte) (sec : Secret) (u : HashUnit) : HashUnit :=
  let p := u.ptr.toNat
  { u with
    acc0 := mix (read8 bytes p ^^^ sec.s1) (read8 bytes (p + 8) ^^^ u.acc0)
    ptr := u.ptr + 16
    rem := u.rem - 16 }

/-- `final_ab()`, the final operand selection (42_hash.md R134). -/
def finalAB (bytes : Nat → Byte) (u : HashUnit) : Word × Word :=
  let q := u.hbase.toNat
  let len := u.hlen.toNat
  if 16 < len then
    (read8 bytes (u.ptr.toNat + u.rem.toNat - 16), read8 bytes (u.ptr.toNat + u.rem.toNat - 8))
  else if 4 ≤ len then
    let sh := len / 8 * 4
    ((read4 bytes q <<< 32) ||| read4 bytes (q + sh),
      (read4 bytes (q + len - 4) <<< 32) ||| read4 bytes (q + len - 4 - sh))
  else if 0 < len then (read3 bytes q len, 0)
  else (0, 0)

/-- The finalisation of a pair of operands (42_hash.md R135, R138). -/
def finalize (sec : Secret) (seed len : Word) (ab : Word × Word) : Word :=
  let p := mum (ab.1 ^^^ sec.s1) (ab.2 ^^^ seed)
  mix (p.1 ^^^ sec.s0 ^^^ len) (p.2 ^^^ sec.s1)

/-- The body of HFINAL (42_hash.md R135). -/
def finalBody (bytes : Nat → Byte) (sec : Secret) (u : HashUnit) : HashUnit :=
  { u with h := finalize sec u.acc0 u.hlen (finalAB bytes u), phase := .none }

/-- `while nat(REM) >= 48: body of HCHUNK` (42_hash.md R137; 90_conflicts.md C1;
notes/assumptions/17.md), at most `fuel` passes. -/
def chunkLoop (bytes : Nat → Byte) (sec : Secret) : (fuel : Nat) → HashUnit → HashUnit
  | 0, u => u
  | fuel + 1, u => if 48 ≤ u.rem.toNat then chunkLoop bytes sec fuel (chunkBody bytes sec u) else u

/-- `while nat(REM) > 16: body of HTAIL` (42_hash.md R137), at most `fuel` passes. -/
def tailLoop (bytes : Nat → Byte) (sec : Secret) : (fuel : Nat) → HashUnit → HashUnit
  | 0, u => u
  | fuel + 1, u => if 16 < u.rem.toNat then tailLoop bytes sec fuel (tailBody bytes sec u) else u

/-- The whole hash on the hash unit (42_hash.md R137). LEN passes are more than either loop takes, since each pass
takes 48 or 16 from REM. -/
def hashBody (bytes : Nat → Byte) (sec : Secret) (seed koff len : Word) (u : HashUnit) : HashUnit :=
  let u := initBody sec seed koff len u
  let u := chunkLoop bytes sec len.toNat u
  let u := foldBody u
  let u := tailLoop bytes sec len.toNat u
  finalBody bytes sec u

/-- EBOUNDS of HINIT and HASH: the key does not lie wholly in KMEM, the sum taken without wrap-around
(42_hash.md R130, R137). -/
def State.keyOutside (s : State) : Bool := decide (s.koff.toNat + s.len.toNat > s.params.kmemSize)

/-- HINIT (42_hash.md R130). -/
def execHinit (s : State) : Host.Outcome State Fault Refusal :=
  if s.keyOutside then takeFault .bounds s
  else commit (s.setHash (initBody s.secret s.seed s.koff s.len s.hash))

/-- HCHUNK (42_hash.md R131). -/
def execHchunk (s : State) : Host.Outcome State Fault Refusal :=
  if s.hash.phase ≠ .chunk ∨ s.hash.rem.toNat < 48 then takeFault .seq s
  else commit (s.setHash (chunkBody s.kmemByte s.secret s.hash))

/-- HFOLD (42_hash.md R132). -/
def execHfold (s : State) : Host.Outcome State Fault Refusal :=
  if s.hash.phase ≠ .chunk ∨ s.hash.rem.toNat ≥ 48 then takeFault .seq s
  else commit (s.setHash (foldBody s.hash))

/-- HTAIL (42_hash.md R133). -/
def execHtail (s : State) : Host.Outcome State Fault Refusal :=
  if s.hash.phase ≠ .tail ∨ s.hash.rem.toNat ≤ 16 then takeFault .seq s
  else commit (s.setHash (tailBody s.kmemByte s.secret s.hash))

/-- HFINAL (42_hash.md R135). -/
def execHfinal (s : State) : Host.Outcome State Fault Refusal :=
  if s.hash.phase ≠ .tail ∨ s.hash.rem.toNat > 16 then takeFault .seq s
  else commit (s.setHash (finalBody s.kmemByte s.secret s.hash))

/-- HASH (42_hash.md R137). -/
def execHash (s : State) : Host.Outcome State Fault Refusal :=
  if s.keyOutside then takeFault .bounds s
  else commit (s.setHash (hashBody s.kmemByte s.secret s.seed s.koff s.len s.hash))

end Sys2Proof.Machine
end

