-- ==== Sys2Proof/Machine/Prime.lean ====
section
/-! DEFINITION. The modular arithmetic and primality family: MULMOD, POWMOD and PRIME (43_prime.md). The arithmetic is
on natural numbers and exact; the results are below the modulus, hence 64-bit values. -/

namespace Sys2Proof.Machine

/-- `mulmod(x, y, n)` (43_prime.md R160). -/
def mulMod (x y n : Nat) : Nat := x * y % n

/-- Binary square-and-multiply over the low `fuel` bits of the exponent `e` (43_prime.md R160): `acc` times `x ^ e`
modulo `n`. -/
def powLoop (n : Nat) : (fuel x e acc : Nat) → Nat
  | 0, _, _, acc => acc
  | fuel + 1, x, e, acc => powLoop n fuel (mulMod x x n) (e / 2) (if e % 2 = 1 then mulMod acc x n else acc)

/-- `powmod(x, e, n)` for a 64-bit exponent, with `x ^ 0 = 1` reduced modulo `n` (43_prime.md R160;
notes/assumptions/18.md). -/
def powMod (x e n : Nat) : Nat := powLoop n 64 (x % n) e (1 % n)

/-- `ctz(v)`, the number of trailing zero bits of a nonzero `v` below `2 ^ fuel` (00_scope.md R12). -/
def trailingZeros : (fuel v : Nat) → Nat
  | 0, _ => 0
  | fuel + 1, v => if v % 2 = 0 then trailingZeros fuel (v / 2) + 1 else 0

/-- The squaring loop of one base: `repeat` passes, passing if `n - 1` is reached and stopping as composite at 0 or 1
(43_prime.md R163). -/
def squaresReach (n : Nat) : (passes x : Nat) → Bool
  | 0, _ => false
  | passes + 1, x =>
    let y := mulMod x x n
    if y = n - 1 then true else if y = 0 ∨ y = 1 then false else squaresReach n passes y

/-- Whether `n` with `n - 1 = d * 2 ^ z` passes base `base` (43_prime.md R163). -/
def passesBase (n d z base : Nat) : Bool :=
  let x := powMod base d n
  if x = 1 ∨ x = n - 1 then true else squaresReach n (z - 1) x

/-- The base loop with its shortcut: accept once `n` is below the next base's square (43_prime.md R163). -/
def passesBases (n d z : Nat) : List Nat → Bool
  | [] => true
  | base :: rest =>
    if n < base * base then true else if passesBase n d z base then passesBases n d z rest else false

/-- The base set (43_prime.md R163). -/
def witnessBases : List Nat := [2, 3, 5, 7, 11, 13, 17, 19, 23, 29, 31, 37]

/-- `sprp64(n)`, the strong-probable-prime test (43_prime.md R163). -/
def sprp64 (n : Nat) : Bool :=
  if n < 2 then false
  else if n = 2 ∨ n = 3 then true
  else if n % 2 = 0 then false
  else
    let z := trailingZeros 64 (n - 1)
    passesBases n ((n - 1) / 2 ^ z) z witnessBases

/-- MULMOD: EMODZERO where N = 0 (43_prime.md R161). -/
def execMulmod (s : State) : Host.Outcome State Fault Refusal :=
  if s.n = 0 then takeFault .modZero s
  else commit (s.setA (BitVec.ofNat 64 (mulMod s.a.toNat s.b.toNat s.n.toNat)))

/-- POWMOD: EMODZERO where N = 0 (43_prime.md R162). -/
def execPowmod (s : State) : Host.Outcome State Fault Refusal :=
  if s.n = 0 then takeFault .modZero s
  else commit (s.setA (BitVec.ofNat 64 (powMod s.a.toNat s.b.toNat s.n.toNat)))

/-- PRIME (43_prime.md R164). -/
def execPrime (s : State) : Host.Outcome State Fault Refusal :=
  commit (s.setA (if sprp64 s.n.toNat then 1 else 0))

end Sys2Proof.Machine
end

