-- ==== Sys2Proof/Machine/System.lean ====
section
/-! DEFINITION. The system family: NOP (44_system.md R182). -/

namespace Sys2Proof.Machine

/-- NOP: nothing but the command protocol (44_system.md R182). -/
def execNop (s : State) : Host.Outcome State Fault Refusal := commit s

end Sys2Proof.Machine
end

