-- ==== Sys2Proof/Machine/Dispatch.lean ====
section
/-! DEFINITION. The meaning of each command, one arm per constructor (30_encoding.md R92): the whole completion of
44_system.md R181 for a legal command word. -/

namespace Sys2Proof.Machine

def exec (i : Instr) (s : State) : Host.Outcome State Fault Refusal :=
  match i with
  | .nop => Sys2Proof.Machine.execNop s
  | .mum => Sys2Proof.Machine.execMum s
  | .mix => Sys2Proof.Machine.execMix s
  | .rd8 d => Sys2Proof.Machine.execRd8 d s
  | .rd4 d => Sys2Proof.Machine.execRd4 d s
  | .rd3 d k => Sys2Proof.Machine.execRd3 d k s
  | .hinit => Sys2Proof.Machine.execHinit s
  | .hchunk => Sys2Proof.Machine.execHchunk s
  | .hfold => Sys2Proof.Machine.execHfold s
  | .htail => Sys2Proof.Machine.execHtail s
  | .hfinal => Sys2Proof.Machine.execHfinal s
  | .hash => Sys2Proof.Machine.execHash s
  | .mulmod => Sys2Proof.Machine.execMulmod s
  | .powmod => Sys2Proof.Machine.execPowmod s
  | .prime => Sys2Proof.Machine.execPrime s

end Sys2Proof.Machine
end

