-- ==== Sys2Proof/Machine/Engine.lean ====
section
/-! DEFINITION. The ENGINE's turn (44_system.md R181). -/

namespace Sys2Proof.Machine

/-- The ENGINE's turn: the whole in-flight command if there is one (44_system.md R181), an illegal word faulting with
EILLEGAL before any other check (60_exceptions.md R191, R202); nothing while the block is idle
(notes/assumptions/2.md). A completion is one step (notes/assumptions/15.md). -/
def engineTurn (s : State) : Host.Outcome State Fault Refusal :=
  match s.cur with
  | Option.none => .next s
  | some w =>
    match decode w with
    | .ok i => exec i s
    | .error _ => takeFault .illegal s

end Sys2Proof.Machine
end

