-- ==== Sys2Proof/Machine/Port.lean ====
section
/-! DEFINITION. The host's bus accesses, each performed atomically (20_memory.md R67 to R73, R76, R83; 44_system.md
R180; 60_exceptions.md R197; 70_reset_and_hazards.md R230). -/

namespace Sys2Proof.Machine

/-- The command in flight, if CUR holds a legal word (notes/assumptions/7.md). -/
def State.inFlight (s : State) : Option Instr := s.cur.bind decode?

/-- Whether a register is in the in-flight command's write set, so that a read of it is unspecified
(70_reset_and_hazards.md R230). -/
def State.unstable (s : State) (r : Reg) : Bool :=
  match s.inFlight with
  | some i => i.writes.contains r
  | Option.none => false

/-- Whether the in-flight command writes HPHASE, so that STATUS bits 5:4 are unspecified
(70_reset_and_hazards.md R230). -/
def State.phaseUnstable (s : State) : Bool :=
  match s.inFlight with
  | some i => i.writesPhase
  | Option.none => false

/-- Whether a host read of a register draws a free value. -/
def State.readDraws (s : State) (r : Reg) : Bool := s.unstable r || (r == .status && s.phaseUnstable)

/-- What a host read of a register returns (20_memory.md R83): a free value in the in-flight command's write set, STATUS
with free bits 5:4 while HPHASE is written, else the register's value (70_reset_and_hazards.md R230;
notes/assumptions/6.md). -/
def State.readValue (s : State) (r : Reg) : Word :=
  if s.unstable r then Config.unspecified s.draws
  else if r = .status ∧ s.phaseUnstable = true then s.statusWith ((Config.unspecified s.draws).extractLsb' 4 2)
  else s.regValue r

/-- A host read of `bytes` bytes at a window offset (20_memory.md R62, R67 to R70). It changes nothing but the value
returned and the count of draws (R73). -/
def State.hostRead (s : State) (o bytes : Nat) : State :=
  match target s.params o bytes with
  | .reg r lane => (if s.readDraws r then s.countDraw else s).answer (lane.pick (s.readValue r))
  | .kmem i => s.answer (memRead s.kmemByte i bytes)
  | .nothing => s.answer 0

/-- A CMD write of a command word (44_system.md R180): dropped with EBUSY while BUSY, dropped without a record while
ERR, else the command issues. -/
def State.writeCmd (s : State) (o : Nat) (w : CmdWord) : State :=
  if s.busy then s.dropBusy o else if s.err then s else s.issue w

/-- A write to an input register, or to half of it: dropped with EBUSY while BUSY (60_exceptions.md R197), else the
covered bits are replaced (20_memory.md R67). -/
def State.writeInput (s : State) (o : Nat) (r : Reg) (lane : Lane) (v : Word) : State :=
  if s.busy then s.dropBusy o else s.setReg r (lane.put (s.regValue r) v)

/-- An accepted host write of `v` to a register (10_state.md R26, R29, R30, R44; 20_memory.md R67). -/
def State.writeReg (s : State) (o : Nat) (r : Reg) (lane : Lane) (v : Word) : State :=
  match r with
  | .ctrl => if lane = .high then s else s.writeCtrl v
  | .status => if lane = .high then s else s.writeStatus v
  | .cmd => if lane = .high then s else s.writeCmd o (v.setWidth 32)
  | .off | .a | .b | .n | .s0 | .s1 | .s2 | .s3 | .seed | .koff | .len => s.writeInput o r lane v
  | .id | .cfg | .errinfo | .h | .acc0 | .acc1 | .acc2 | .ptr | .rem | .hbase | .hlen => s

/-- An accepted host write of `bytes` bytes at key offset `i`: dropped with EBUSY while BUSY (60_exceptions.md R197),
else `MemWrite` (20_memory.md R62). -/
def State.writeKmem (s : State) (o i bytes : Nat) (v : Word) : State :=
  if s.busy then s.dropBusy o else s.storeKmem i bytes v

/-- A host write of `bytes` bytes at a window offset (20_memory.md R62, R67 to R70). -/
def State.hostWrite (s : State) (o bytes : Nat) (v : Word) : State :=
  match target s.params o bytes with
  | .reg r lane => s.writeReg o r lane v
  | .kmem i => s.writeKmem o i bytes v
  | .nothing => s

/-- One host access. An address outside the window does not reach the block (10_state.md R20;
notes/assumptions/9.md). -/
def State.hostAccess (s : State) : Access → State
  | .read addr bytes =>
    match windowOffset s.params addr with
    | some o => s.hostRead o bytes
    | Option.none => s
  | .write addr bytes v =>
    match windowOffset s.params addr with
    | some o => s.hostWrite o bytes v
    | Option.none => s

end Sys2Proof.Machine
end

