-- ==== Sys2Proof/Machine/Step.lean ====
section
/-! DEFINITION. One step: a host access, an engine completion or a power-on, as the agenda says (00_scope.md R14;
notes/assumptions/1.md). -/

namespace Sys2Proof.Machine

/-- One step of the machine. With no turn placed the ENGINE has the turn. -/
def step (s : State) : Host.Outcome State Fault Refusal :=
  match s.agenda with
  | [] => engineTurn s
  | .engine :: turns => engineTurn (s.setAgenda turns)
  | .host access :: turns => .next ((s.setAgenda turns).hostAccess access)
  | .powerOn :: turns => .next (s.setAgenda turns).powerOn

/-- `s` with the instruction `w` in flight and the ENGINE's turn next, so that the next step runs it: the issue of
44_system.md R180, whatever ERR holds (notes/assumptions/14.md). -/
def State.withFetchWord (s : State) (nbits w : Nat) : State :=
  (s.issue (tableWord nbits w)).setAgenda (.engine :: s.agenda)

end Sys2Proof.Machine
end

