-- ==== Sys2Proof/Machine/Reference.lean ====
section
/-! DEFINITION. The reference function `wyhash(key, seed, s)`, transcribed from 42_hash.md R138 on a byte sequence and
independent of the hash unit's registers. No step calls it; the statements about HASH do. -/

namespace Sys2Proof.Machine

/-- The running states of the 48-byte loop: the window `p`, the remaining count `i`, `seed`, `see1` and `see2`. -/
structure RefState where
  p    : Nat
  i    : Nat
  seed : Word
  see1 : Word
  see2 : Word
deriving DecidableEq, Repr

/-- Byte `i` of a key. The reference reads only indices below the key's length. -/
def keyByte (key : List Byte) (i : Nat) : Byte := key.getD i 0

/-- `while i >= 48` of 42_hash.md R138. -/
def refChunks (key : List Byte) (s : Secret) : (fuel : Nat) → RefState → RefState
  | 0, r => r
  | fuel + 1, r =>
    if r.i ≥ 48 then
      refChunks key s fuel
        { p := r.p + 48
          i := r.i - 48
          seed := mix (read8 (keyByte key) r.p ^^^ s.s1) (read8 (keyByte key) (r.p + 8) ^^^ r.seed)
          see1 := mix (read8 (keyByte key) (r.p + 16) ^^^ s.s2) (read8 (keyByte key) (r.p + 24) ^^^ r.see1)
          see2 := mix (read8 (keyByte key) (r.p + 32) ^^^ s.s3) (read8 (keyByte key) (r.p + 40) ^^^ r.see2) }
    else r

/-- `while i > 16` of 42_hash.md R138. -/
def refTail (key : List Byte) (s : Secret) : (fuel : Nat) → RefState → RefState
  | 0, r => r
  | fuel + 1, r =>
    if r.i > 16 then
      refTail key s fuel
        { r with
          p := r.p + 16
          i := r.i - 16
          seed := mix (read8 (keyByte key) r.p ^^^ s.s1) (read8 (keyByte key) (r.p + 8) ^^^ r.seed) }
    else r

/-- The operands `a` and `b` of a key of at most 16 bytes (42_hash.md R138). -/
def refShort (key : List Byte) : Word × Word :=
  let len := key.length
  if len ≥ 4 then
    let sh := len / 8 * 4
    ((read4 (keyByte key) 0 <<< 32) ||| read4 (keyByte key) sh,
      (read4 (keyByte key) (len - 4) <<< 32) ||| read4 (keyByte key) (len - 4 - sh))
  else if len > 0 then (read3 (keyByte key) 0 len, 0)
  else (0, 0)

/-- `wyhash(key, seed, s)` (42_hash.md R138). -/
def wyhash (key : List Byte) (seed : Word) (s : Secret) : Word :=
  let len := key.length
  let seed := seed ^^^ mix (seed ^^^ s.s0) s.s1
  if len ≤ 16 then finalize s seed (BitVec.ofNat 64 len) (refShort key)
  else
    let r := refChunks key s len { p := 0, i := len, seed := seed, see1 := seed, see2 := seed }
    let r := refTail key s len { r with seed := r.seed ^^^ r.see1 ^^^ r.see2 }
    finalize s r.seed (BitVec.ofNat 64 len)
      (read8 (keyByte key) (r.p + r.i - 16), read8 (keyByte key) (r.p + r.i - 8))

/-- The key a hash command reads: the bytes `KMEM[KOFF .. KOFF+LEN-1]` (10_state.md R37). -/
def State.keyBytes (s : State) : List Byte :=
  (List.range s.len.toNat).map (fun i => s.kmemByte (s.koff.toNat + i))

end Sys2Proof.Machine
end

