-- ==== Sys2Proof/Safety.lean ====
section
/-! DEFINITION. What counts as a safe state, in the terms the statements use: the invariant every step keeps, the
accesses of a host at a window offset, and a sequence of commands run one after another. -/

namespace Sys2Proof.Machine

/-- KMEM's written bytes are in canonical form and lie inside KMEM (10_state.md R43). -/
def State.memoryOk (s : State) : Prop := Memory.wf s.kmem ∧ ∀ c ∈ s.kmem, c.1 < s.params.kmemSize

/-- DONE is 0 while a command is in flight (10_state.md R28, R29: "issue clears DONE"). -/
def State.protocolOk (s : State) : Prop := s.busy = true → s.done = false

/-- The error record (60_exceptions.md R198, 10_state.md R31): no code while ERR = 0; while ERR = 1 one of the five
codes, and ERRINFO is an offset of the window under bit 63 for EBUSY and a command word for every other code. -/
def State.errorOk (s : State) : Prop :=
  (s.err = false → s.errcode = 0) ∧
  (s.err = true → s.errcode ∈ [1, 2, 3, 4, 5] ∧
    (s.errcode = 3 → ∃ o, o < 0x20000 ∧ s.errinfo = ((1 : Word) <<< 63) ||| BitVec.ofNat 64 o) ∧
    (s.errcode ≠ 3 → s.errinfo.toNat < 2 ^ 32))

/-- The hash sequencer's invariant (10_state.md R45), and that fewer than 48 bytes remain once the three states are
folded (42_hash.md R132). -/
def State.sequencerOk (s : State) : Prop :=
  (s.hash.phase ≠ .none →
    s.hash.ptr.toNat + s.hash.rem.toNat = s.hash.hbase.toNat + s.hash.hlen.toNat ∧
    s.hash.hbase.toNat + s.hash.hlen.toNat ≤ s.params.kmemSize ∧
    s.hash.rem.toNat ≤ s.hash.hlen.toNat) ∧
  (s.hash.phase = .tail → s.hash.rem.toNat < 48)

/-- The invariant of the block. -/
structure State.Inv (s : State) : Prop where
  memory    : s.memoryOk
  protocol  : s.protocolOk
  error     : s.errorOk
  sequencer : s.sequencerOk

/-- The next step is the ENGINE's: no turn is placed, or the first one is the ENGINE's. -/
def State.engineNext (s : State) : Prop := s.agenda = [] ∨ ∃ turns, s.agenda = .engine :: turns

/-- The state a step works on: the first turn, if any, is taken. -/
def State.taken (s : State) : State := s.setAgenda s.agenda.tail

/-- A host read of `bytes` bytes at window offset `o`. -/
def State.busRead (s : State) (o bytes : Nat) : State := s.hostAccess (.read (s.params.blockBase + o) bytes)

/-- A host write of `bytes` bytes at window offset `o`. -/
def State.busWrite (s : State) (o bytes : Nat) (v : Word) : State :=
  s.hostAccess (.write (s.params.blockBase + o) bytes v)

/-- The commands of a list, each completed before the next (30_encoding.md R101, `C <command>`). -/
def execAll : List Instr → State → Host.Outcome State Fault Refusal
  | [], s => .next s
  | i :: rest, s =>
    match exec i s with
    | .next t => execAll rest t
    | .fault f => .fault f
    | .refused r => .refused r

/-- The number of HCHUNK commands a key of length `len` takes (42_hash.md R139). -/
def chunkCount (len : Nat) : Nat := if 16 < len then len / 48 else 0

/-- The number of HTAIL commands a key of length `len` takes (42_hash.md R139): with `r` bytes left after the chunks,
0 if `r <= 16`, else `ceil((r - 16) / 16)`. -/
def tailCount (len : Nat) : Nat :=
  let r := len - 48 * chunkCount len
  if r ≤ 16 then 0 else (r - 16 + 15) / 16

/-- The one fault-free step sequence of a key of length `len` (42_hash.md R139). -/
def stepSequence (len : Nat) : List Instr :=
  [.hinit] ++ List.replicate (chunkCount len) .hchunk ++ [.hfold] ++ List.replicate (tailCount len) .htail ++ [.hfinal]

end Sys2Proof.Machine
end

