-- ==== Sys2Proof/Certificates/Slice0/Obligations.lean ====
section
/-! DEFINITION. The statements for the provers, from the numbered rules of spec/. A whole next state written as `s` with
some fields replaced is the instruction's result and its frame at once: every field not named is unchanged. -/

open Sys2Proof Sys2Proof.Machine

/-! Encoding. -/

/-- 30_encoding.md R99, R100: the word of every well-formed command decodes to that command, with every operand. -/
def Obligations.EncodeThenDecodeReturnsTheCommand : Prop :=
  ∀ i : Instr, i.wellFormed = true → decode (encode i) = .ok i

/-- 30_encoding.md R99: each of the 2^32 words that decodes spells exactly one well-formed command, whose word it is. -/
def Obligations.DecodedWordIsTheCommandsOwnWord : Prop :=
  ∀ (w : CmdWord) (i : Instr), decode w = .ok i → i.wellFormed = true ∧ encode i = w

/-- 30_encoding.md R97: a word is illegal exactly when one of the five points holds. -/
def Obligations.WordIllegalExactlyByTheFiveCauses : Prop :=
  ∀ w : CmdWord,
    (∃ e, decode w = .error e) ↔
      (w.extractLsb' 0 8 ∉ [0x00, 0x01, 0x02, 0x10, 0x11, 0x12, 0x20, 0x21, 0x22, 0x23, 0x24, 0x2F, 0x30, 0x31, 0x32] ∨
        w.extractLsb' 11 21 ≠ 0 ∨
        (w.getLsbD 8 = true ∧ w.extractLsb' 0 8 ∉ [0x10, 0x11, 0x12]) ∨
        (w.extractLsb' 9 2 ≠ 0 ∧ w.extractLsb' 0 8 ≠ 0x12) ∨
        (w.extractLsb' 9 2 = 0 ∧ w.extractLsb' 0 8 = 0x12))

/-- 30_encoding.md R100: the legal words of its table, written out, decode to the commands they stand for. -/
def Obligations.LegalWordTableDecodes : Prop :=
  decode 0x00000000 = .ok .nop ∧ decode 0x00000001 = .ok .mum ∧ decode 0x00000002 = .ok .mix ∧
  decode 0x00000010 = .ok (.rd8 .a) ∧ decode 0x00000110 = .ok (.rd8 .b) ∧
  decode 0x00000011 = .ok (.rd4 .a) ∧ decode 0x00000111 = .ok (.rd4 .b) ∧
  decode 0x00000212 = .ok (.rd3 .a 1) ∧ decode 0x00000412 = .ok (.rd3 .a 2) ∧ decode 0x00000612 = .ok (.rd3 .a 3) ∧
  decode 0x00000312 = .ok (.rd3 .b 1) ∧ decode 0x00000512 = .ok (.rd3 .b 2) ∧ decode 0x00000712 = .ok (.rd3 .b 3) ∧
  decode 0x00000020 = .ok .hinit ∧ decode 0x00000021 = .ok .hchunk ∧ decode 0x00000022 = .ok .hfold ∧
  decode 0x00000023 = .ok .htail ∧ decode 0x00000024 = .ok .hfinal ∧ decode 0x0000002F = .ok .hash ∧
  decode 0x00000030 = .ok .mulmod ∧ decode 0x00000031 = .ok .powmod ∧ decode 0x00000032 = .ok .prime

/-! The command protocol and the engine. -/

/-- 44_system.md R181: when the ENGINE moves next and CUR holds a word that decodes to `i`, the step is `exec i` on the
state whose first turn is taken (the agenda is the model's own, notes/assumptions/1.md). -/
def Obligations.EngineTurnRunsTheDecodedCommand : Prop :=
  ∀ (s : State) (w : CmdWord) (i : Instr), s.engineNext → s.cur = some w → decode w = .ok i →
    step s = exec i s.taken

/-- 60_exceptions.md R191, R202: an illegal word faults with EILLEGAL whatever the state, writes only the error record,
and completes. -/
def Obligations.IllegalWordFaultsWithEillegal : Prop :=
  ∀ (s : State) (w : CmdWord) (e : Reject), s.engineNext → s.cur = some w → decode w = .error e →
    step s = .next { s.taken with
      cur := none
      done := true
      err := true
      errcode := if s.err then s.errcode else 0x01
      errinfo := if s.err then s.errinfo else w.setWidth 64 }

/-- 44_system.md R180, 10_state.md R30: a CMD write is dropped with EBUSY while BUSY, dropped without a record while
ERR, and otherwise issues its low 32 bits; a write at 0x024 is ignored in every state, and CMD reads 0. -/
def Obligations.CmdWriteIssuesOrIsDropped : Prop :=
  ∀ (s : State) (n : Nat) (v : Word), n = 4 ∨ n = 8 →
    (s.busy = true → s.busWrite 0x020 n v = { s with
      err := true
      errcode := if s.err then s.errcode else 0x03
      errinfo := if s.err then s.errinfo else 0x8000000000000020 }) ∧
    (s.busy = false → s.err = true → s.busWrite 0x020 n v = s) ∧
    (s.busy = false → s.err = false →
      s.busWrite 0x020 n v = { s with cur := some (v.extractLsb' 0 32), done := false } ∧
      (s.busWrite 0x020 n v).busy = true) ∧
    s.busWrite 0x024 4 v = s ∧
    (s.busRead 0x020 n).hostData = 0 ∧ (s.busRead 0x024 4).hostData = 0

/-- 44_system.md R181: every command, on every state, ends with BUSY 0, DONE 1 and CUR discarded. -/
def Obligations.EveryCommandEndsCompleted : Prop :=
  ∀ (i : Instr) (s : State), ∃ t, exec i s = .next t ∧ t.cur = none ∧ t.busy = false ∧ t.done = true

/-- 60_exceptions.md R213, 00_scope.md R15: the block never gets stuck; every step from every state has a next state. -/
def Obligations.StepNeverStops : Prop := ∀ s : State, ∃ t, step s = .next t

/-- 60_exceptions.md R196: a command either completes with at most A, B and the hash registers changed and the error
record left alone, or it is a fault: BUSY, DONE and CUR as at every completion, the record written where ERR was 0 with
`zext_64(CUR)`, and nothing else changed. -/
def Obligations.CommandFaultWritesOnlyTheRecord : Prop :=
  ∀ (i : Instr) (s t : State), exec i s = .next t →
    (∃ (a b : Word) (u : HashUnit), t = { s with cur := none, done := true, a := a, b := b, hash := u }) ∨
    (∃ code : BitVec 8, code ∈ [0x01, 0x02, 0x04, 0x05] ∧
      t = { s with
        cur := none
        done := true
        err := true
        errcode := if s.err then s.errcode else code
        errinfo := if s.err then s.errinfo else s.curWord.setWidth 64 })

/-- 44_system.md R182: NOP completes and changes nothing else. -/
def Obligations.NopOnlyCompletes : Prop :=
  ∀ s : State, exec .nop s = .next { s with cur := none, done := true }

/-! Multiply-mix. -/

/-- 40_mulmix.md R112: MUM writes the low half of the exact product to A and the high half to B, on every state. -/
def Obligations.MumWritesBothHalvesOfTheProduct : Prop :=
  ∀ s : State, exec .mum s = .next { s with
    cur := none
    done := true
    a := BitVec.ofNat 64 (s.a.toNat * s.b.toNat % 2 ^ 64)
    b := BitVec.ofNat 64 (s.a.toNat * s.b.toNat / 2 ^ 64) }

/-- 40_mulmix.md R110: the two halves are the exact 128-bit product, and `mum` is commutative. -/
def Obligations.ProductHalvesAreExact : Prop :=
  ∀ a b : Word,
    (mum a b).1.toNat = a.toNat * b.toNat % 2 ^ 64 ∧ (mum a b).2.toNat = a.toNat * b.toNat / 2 ^ 64 ∧
    ((mum a b).2 ++ (mum a b).1).toNat = a.toNat * b.toNat ∧ mum a b = mum b a

/-- 40_mulmix.md R113, R111: MIX writes the exclusive or of the product's halves to A; B is unchanged. -/
def Obligations.MixFoldsTheProduct : Prop :=
  ∀ s : State, exec .mix s = .next { s with
    cur := none
    done := true
    a := BitVec.ofNat 64 (s.a.toNat * s.b.toNat % 2 ^ 64) ^^^ BitVec.ofNat 64 (s.a.toNat * s.b.toNat / 2 ^ 64) }

/-- 40_mulmix.md R114: the product fits 128 bits, the low half is the wrapping product, the high half is the unsigned high
product and at most 2^64 - 2, the pair is never all ones, `mix` is commutative and `mix(a, 0) = 0`. -/
def Obligations.MultiplyMixLaws : Prop :=
  ∀ a b : Word,
    a.toNat * b.toNat < 2 ^ 128 ∧ (mum a b).1 = a * b ∧ (mum a b).2.toNat = a.toNat * b.toNat / 2 ^ 64 ∧
    (mum a b).2.toNat ≤ 2 ^ 64 - 2 ∧ (mum a b).2 ++ (mum a b).1 ≠ BitVec.allOnes 128 ∧ mix a b = mix b a ∧ mix a 0 = 0

/-! Readers. -/

/-- 41_readers.md R123, R120: RD8 in bounds writes the 8 bytes at OFF, the first one lowest, to the destination. -/
def Obligations.Rd8ReadsEightBytes : Prop :=
  ∀ (s : State) (d : Dst), s.off.toNat + 8 ≤ s.params.kmemSize →
    let x := s.off.toNat
    let v : Word := s.kmemByte (x + 7) ++ s.kmemByte (x + 6) ++ s.kmemByte (x + 5) ++ s.kmemByte (x + 4) ++
      s.kmemByte (x + 3) ++ s.kmemByte (x + 2) ++ s.kmemByte (x + 1) ++ s.kmemByte x
    exec (.rd8 d) s = .next { s with
      cur := none
      done := true
      a := if d = .a then v else s.a
      b := if d = .b then v else s.b }

/-- 41_readers.md R124, R121: RD4 in bounds writes the 4 bytes at OFF, zero-extended, to the destination. -/
def Obligations.Rd4ReadsFourBytes : Prop :=
  ∀ (s : State) (d : Dst), s.off.toNat + 4 ≤ s.params.kmemSize →
    let x := s.off.toNat
    let v : Word := (0 : BitVec 32) ++ s.kmemByte (x + 3) ++ s.kmemByte (x + 2) ++ s.kmemByte (x + 1) ++ s.kmemByte x
    exec (.rd4 d) s = .next { s with
      cur := none
      done := true
      a := if d = .a then v else s.a
      b := if d = .b then v else s.b }

/-- 41_readers.md R125, R122: RD3 in bounds writes byte 0 over byte `k >> 1` over byte `k - 1` to the destination. -/
def Obligations.Rd3PacksItsBytes : Prop :=
  ∀ (s : State) (d : Dst) (k : BitVec 2), k ≠ 0 → s.off.toNat + k.toNat ≤ s.params.kmemSize →
    let x := s.off.toNat
    let v : Word := (0 : BitVec 40) ++ s.kmemByte x ++
      (if k = 1 then s.kmemByte x else s.kmemByte (x + 1)) ++
      (if k = 1 then s.kmemByte x else if k = 2 then s.kmemByte (x + 1) else s.kmemByte (x + 2))
    exec (.rd3 d k) s = .next { s with
      cur := none
      done := true
      a := if d = .a then v else s.a
      b := if d = .b then v else s.b }

/-- 60_exceptions.md R192: the readers fault with EBOUNDS where OFF plus their width passes the end of KMEM, HINIT and
HASH where KOFF plus LEN does (sums without wrap-around), and the fault writes only the record. -/
def Obligations.KeyOutsideKmemFaultsWithEbounds : Prop :=
  ∀ (s : State) (d : Dst) (k : BitVec 2),
    let fault : State := { s with
      cur := none
      done := true
      err := true
      errcode := if s.err then s.errcode else 0x02
      errinfo := if s.err then s.errinfo else s.curWord.setWidth 64 }
    (s.off.toNat + 8 > s.params.kmemSize → exec (.rd8 d) s = .next fault) ∧
    (s.off.toNat + 4 > s.params.kmemSize → exec (.rd4 d) s = .next fault) ∧
    (k ≠ 0 → s.off.toNat + k.toNat > s.params.kmemSize → exec (.rd3 d k) s = .next fault) ∧
    (s.koff.toNat + s.len.toNat > s.params.kmemSize →
      exec .hinit s = .next fault ∧ exec .hash s = .next fault)

/-! Hash. -/

/-- 42_hash.md R130: HINIT with the key inside KMEM seeds the three accumulators, latches KOFF and LEN and enters the
chunk phase. -/
def Obligations.HinitSeedsTheAccumulators : Prop :=
  ∀ s : State, s.koff.toNat + s.len.toNat ≤ s.params.kmemSize →
    let t := s.seed ^^^ mix (s.seed ^^^ s.secret.s0) s.secret.s1
    exec .hinit s = .next { s with
      cur := none
      done := true
      hash := { h := s.hash.h, acc0 := t, acc1 := t, acc2 := t, ptr := s.koff, rem := s.len, hbase := s.koff,
                hlen := s.len, phase := .chunk } }

/-- 42_hash.md R131: HCHUNK in the chunk phase with 48 bytes left mixes them into the three accumulators. -/
def Obligations.HchunkMixesFortyEightBytes : Prop :=
  ∀ s : State, s.hash.phase = .chunk → 48 ≤ s.hash.rem.toNat →
    let p := s.hash.ptr.toNat
    let r8 := read8 s.kmemByte
    exec .hchunk s = .next { s with
      cur := none
      done := true
      hash := { s.hash with
        acc0 := mix (r8 p ^^^ s.secret.s1) (r8 (p + 8) ^^^ s.hash.acc0)
        acc1 := mix (r8 (p + 16) ^^^ s.secret.s2) (r8 (p + 24) ^^^ s.hash.acc1)
        acc2 := mix (r8 (p + 32) ^^^ s.secret.s3) (r8 (p + 40) ^^^ s.hash.acc2)
        ptr := s.hash.ptr + 48
        rem := s.hash.rem - 48 } }

/-- 42_hash.md R132: HFOLD in the chunk phase with fewer than 48 bytes left folds the accumulators into ACC0 and enters
the tail phase. -/
def Obligations.HfoldFoldsTheAccumulators : Prop :=
  ∀ s : State, s.hash.phase = .chunk → s.hash.rem.toNat < 48 →
    exec .hfold s = .next { s with
      cur := none
      done := true
      hash := { s.hash with acc0 := s.hash.acc0 ^^^ s.hash.acc1 ^^^ s.hash.acc2, phase := .tail } }

/-- 42_hash.md R133: HTAIL in the tail phase with more than 16 bytes left mixes 16 of them into ACC0. -/
def Obligations.HtailMixesSixteenBytes : Prop :=
  ∀ s : State, s.hash.phase = .tail → 16 < s.hash.rem.toNat →
    let p := s.hash.ptr.toNat
    exec .htail s = .next { s with
      cur := none
      done := true
      hash := { s.hash with
        acc0 := mix (read8 s.kmemByte p ^^^ s.secret.s1) (read8 s.kmemByte (p + 8) ^^^ s.hash.acc0)
        ptr := s.hash.ptr + 16
        rem := s.hash.rem - 16 } }

/-- 42_hash.md R135: HFINAL in the tail phase with at most 16 bytes left writes the digest to H and leaves the phase. -/
def Obligations.HfinalWritesTheDigest : Prop :=
  ∀ s : State, s.hash.phase = .tail → s.hash.rem.toNat ≤ 16 →
    let ab := finalAB s.kmemByte s.hash
    let p := mum (ab.1 ^^^ s.secret.s1) (ab.2 ^^^ s.hash.acc0)
    exec .hfinal s = .next { s with
      cur := none
      done := true
      hash := { s.hash with
        h := mix (p.1 ^^^ s.secret.s0 ^^^ s.hash.hlen) (p.2 ^^^ s.secret.s1)
        phase := .none } }

/-- 42_hash.md R134: the final operands by key length, each regime written out. -/
def Obligations.FinalOperandsByKeyLength : Prop :=
  ∀ (bytes : Nat → Byte) (u : HashUnit),
    let q := u.hbase.toNat
    let len := u.hlen.toNat
    (16 < len → finalAB bytes u =
      (read8 bytes (u.ptr.toNat + u.rem.toNat - 16), read8 bytes (u.ptr.toNat + u.rem.toNat - 8))) ∧
    (4 ≤ len → len ≤ 16 →
      let sh := if len < 8 then 0 else if len < 16 then 4 else 8
      finalAB bytes u = ((read4 bytes q <<< 32) ||| read4 bytes (q + sh),
        (read4 bytes (q + len - 4) <<< 32) ||| read4 bytes (q + len - 4 - sh))) ∧
    (1 ≤ len → len ≤ 3 → finalAB bytes u = (read3 bytes q len, 0)) ∧
    (len = 0 → finalAB bytes u = (0, 0))

/-- 42_hash.md R136: for a key longer than 16 bytes, in every state of a hash in progress, the final operands are the
last 16 key bytes. -/
def Obligations.LongKeyOperandsAreItsLastSixteenBytes : Prop :=
  ∀ s : State, s.sequencerOk → s.hash.phase = .tail → 16 < s.hash.hlen.toNat →
    finalAB s.kmemByte s.hash =
      (read8 s.kmemByte (s.hash.hbase.toNat + s.hash.hlen.toNat - 16),
        read8 s.kmemByte (s.hash.hbase.toNat + s.hash.hlen.toNat - 8))

/-- 60_exceptions.md R195: a step command whose phase or REM does not allow it faults with ESEQ and changes no hash
register. -/
def Obligations.HashStepOutOfSequenceFaultsWithEseq : Prop :=
  ∀ s : State,
    let fault : State := { s with
      cur := none
      done := true
      err := true
      errcode := if s.err then s.errcode else 0x05
      errinfo := if s.err then s.errinfo else s.curWord.setWidth 64 }
    (s.hash.phase ≠ .chunk ∨ s.hash.rem.toNat < 48 → exec .hchunk s = .next fault) ∧
    (s.hash.phase ≠ .chunk ∨ 48 ≤ s.hash.rem.toNat → exec .hfold s = .next fault) ∧
    (s.hash.phase ≠ .tail ∨ s.hash.rem.toNat ≤ 16 → exec .htail s = .next fault) ∧
    (s.hash.phase ≠ .tail ∨ 16 < s.hash.rem.toNat → exec .hfinal s = .next fault)

/-- 42_hash.md R139 (a), R137: HASH with the key inside KMEM writes the reference digest of the key bytes to H, latches
the key, ends with HPHASE NONE, and touches nothing outside the hash unit. -/
def Obligations.HashWritesTheReferenceDigest : Prop :=
  ∀ s : State, s.koff.toNat + s.len.toNat ≤ s.params.kmemSize →
    ∃ u : HashUnit,
      exec .hash s = .next { s with cur := none, done := true, hash := u } ∧
      u.h = wyhash s.keyBytes s.seed s.secret ∧ u.phase = .none ∧ u.hbase = s.koff ∧ u.hlen = s.len

/-- 42_hash.md R139 (b), (c): the fault-free step sequence of the key's length, run from HINIT to HFINAL, leaves exactly
the state HASH leaves. -/
def Obligations.StepSequenceEqualsHash : Prop :=
  ∀ s : State, s.koff.toNat + s.len.toNat ≤ s.params.kmemSize →
    execAll (stepSequence s.len.toNat) s = exec .hash s

/-! Modular arithmetic and primality. -/

/-- 43_prime.md R161, R160: MULMOD with N not 0 writes the exact residue of the product to A. -/
def Obligations.MulmodWritesTheExactResidue : Prop :=
  ∀ s : State, s.n ≠ 0 →
    exec .mulmod s = .next { s with
      cur := none
      done := true
      a := BitVec.ofNat 64 (s.a.toNat * s.b.toNat % s.n.toNat) } ∧
    s.a.toNat * s.b.toNat % s.n.toNat < 2 ^ 64

/-- 43_prime.md R162, R160: POWMOD with N not 0 writes the exact residue of A to the power B to A, with x^0 = 1. -/
def Obligations.PowmodWritesTheExactPower : Prop :=
  ∀ s : State, s.n ≠ 0 →
    exec .powmod s = .next { s with
      cur := none
      done := true
      a := BitVec.ofNat 64 (s.a.toNat ^ s.b.toNat % s.n.toNat) }

/-- 60_exceptions.md R194: MULMOD and POWMOD with N = 0 fault with EMODZERO and write only the record. -/
def Obligations.ZeroModulusFaultsWithEmodzero : Prop :=
  ∀ s : State, s.n = 0 →
    let fault : State := { s with
      cur := none
      done := true
      err := true
      errcode := if s.err then s.errcode else 0x04
      errinfo := if s.err then s.errinfo else s.curWord.setWidth 64 }
    exec .mulmod s = .next fault ∧ exec .powmod s = .next fault

/-- 43_prime.md R164, R163: PRIME writes the verdict of its test, 1 or 0, to A; every N has one. The verdict is 0 below 2
and for an even number above 2, and 1 for 2. For an odd `n >= 3` with `n - 1 = d * 2^z` and `d` odd it is 1 exactly when
every base whose square is at most `n` passes: `base^d` is 1 modulo `n`, or `base^(d * 2^r)` is `n - 1` for some
`r < z`. -/
def Obligations.PrimeWritesTheVerdict : Prop :=
  ∀ s : State,
    let n := s.n.toNat
    exec .prime s = .next { s with
      cur := none
      done := true
      a := if sprp64 n = true then 1 else 0 } ∧
    (n < 2 → sprp64 n = false) ∧ (n = 2 → sprp64 n = true) ∧ (2 < n → n % 2 = 0 → sprp64 n = false) ∧
    (∀ d z : Nat, 3 ≤ n → n - 1 = d * 2 ^ z → d % 2 = 1 → n % 2 = 1 →
      (sprp64 n = true ↔
        ∀ base ∈ [2, 3, 5, 7, 11, 13, 17, 19, 23, 29, 31, 37], base * base ≤ n →
          base ^ d % n = 1 ∨ ∃ r, r < z ∧ base ^ (d * 2 ^ r) % n = n - 1))

/-- 43_prime.md R165: PRIME accepts every prime (no false negatives). -/
def Obligations.PrimeAcceptsEveryPrime : Prop :=
  ∀ s : State, Nat.Prime s.n.toNat → exec .prime s = .next { s with cur := none, done := true, a := 1 }

/-- 43_prime.md R163, R165: PRIME rejects 0, 1 and every number with a smaller prime factor up to 37, so it is exact
below 41^2. -/
def Obligations.PrimeRejectsSmallFactors : Prop :=
  ∀ s : State,
    s.n.toNat < 2 ∨ (∃ p, Nat.Prime p ∧ p ≤ 37 ∧ p ∣ s.n.toNat ∧ p ≠ s.n.toNat) →
      exec .prime s = .next { s with cur := none, done := true, a := 0 }

/-! Frames. -/

/-- 30_encoding.md R93, 42_hash.md R144, 20_memory.md R66: a command leaves every register outside its write set
unchanged (STATUS and ERRINFO have statements of their own), HPHASE unless it writes it, the interrupt enables, the
parameters, and every byte of KMEM. -/
def Obligations.CommandsTouchOnlyTheirWriteSet : Prop :=
  ∀ (i : Instr) (s t : State), exec i s = .next t →
    (∀ r : Reg, r ∉ i.writes → r ≠ .status → r ≠ .errinfo → t.regValue r = s.regValue r) ∧
    (i.writesPhase = false → t.hash.phase = s.hash.phase) ∧
    (∀ x : Nat, t.kmemByte x = s.kmemByte x) ∧
    t.ieDone = s.ieDone ∧ t.ieErr = s.ieErr ∧ t.params = s.params ∧ t.agenda = s.agenda ∧
    t.draws = s.draws ∧ t.hostData = s.hostData

/-- 20_memory.md R66: a byte of KMEM changes only by a host write made while no command is in flight, or by a power-on
reset (the power-on turn is the model's own, notes/assumptions/10.md). -/
def Obligations.KeyMemoryChangesOnlyByIdleHostWrites : Prop :=
  ∀ (s t : State) (x : Nat), step s = .next t → t.kmemByte x ≠ s.kmemByte x →
    (∃ turns, s.agenda = .powerOn :: turns) ∨
    (s.busy = false ∧ ∃ addr n v turns, s.agenda = .host (.write addr n v) :: turns)

/-- 10_state.md R24, R25: ID has its fields and CFG is KMEM_SIZE in every state, both are read-only at their offsets, and
no step changes the parameters. -/
def Obligations.IdAndConfigurationNeverChange : Prop :=
  ∀ s : State,
    ((s.regValue .id).extractLsb' 32 32 = 0x57594D58 ∧ (s.regValue .id).extractLsb' 16 16 = 0x0007 ∧
      (s.regValue .id).extractLsb' 0 16 = 0x0001 ∧ s.regValue .id = 0x57594D5800070001) ∧
    (s.regValue .cfg).toNat = s.params.kmemSize ∧ (∃ j, j ≤ 10 ∧ s.params.kmemSize = 2 ^ (6 + j)) ∧
    (s.busRead 0x000 8).hostData = s.regValue .id ∧ (s.busRead 0x008 8).hostData = s.regValue .cfg ∧
    (∀ v, s.busWrite 0x000 8 v = s ∧ s.busWrite 0x008 8 v = s) ∧
    (∀ t, step s = .next t → t.params = s.params ∧ t.regValue .cfg = s.regValue .cfg)

/-! The host port. -/

/-- 20_memory.md R73: a host read, at any address and of any width, changes nothing but the value returned and the
model's count of unspecified reads (notes/assumptions/3.md and 6.md). -/
def Obligations.HostReadsHaveNoSideEffect : Prop :=
  ∀ (s : State) (addr n : Nat),
    s.hostAccess (.read addr n) =
      { s with draws := (s.hostAccess (.read addr n)).draws, hostData := (s.hostAccess (.read addr n)).hostData }

/-- 20_memory.md R83, R61: a read of a register outside the in-flight command's write set returns its value, whole or by
halves, and a read of KMEM returns its bytes, whether or not a command is in flight. That a narrow read is zero-extended
in `hostData` is the model's choice (notes/assumptions/3.md). While an illegal word is in flight the premise holds of
every register: that its write set is empty is the model's reading (notes/assumptions/7.md), not a rule. -/
def Obligations.StableReadsReturnTheValue : Prop :=
  ∀ s : State,
    (∀ r : Reg,
      (∀ w i, s.cur = some w → decode w = .ok i → r ∉ i.writes ∧ (r = .status → i.writesPhase = false)) →
      (s.busRead r.offset 8).hostData = s.regValue r ∧
      (s.busRead r.offset 4).hostData = (0 : BitVec 32) ++ (s.regValue r).extractLsb' 0 32 ∧
      (s.busRead (r.offset + 4) 4).hostData = (0 : BitVec 32) ++ (s.regValue r).extractLsb' 32 32) ∧
    (∀ x, x < s.params.kmemSize → (s.busRead (0x10000 + x) 1).hostData = (0 : BitVec 56) ++ s.kmemByte x) ∧
    (∀ x, x < s.params.kmemSize → x % 2 = 0 →
      (s.busRead (0x10000 + x) 2).hostData = (0 : BitVec 48) ++ s.kmemByte (x + 1) ++ s.kmemByte x) ∧
    (∀ x, x < s.params.kmemSize → x % 4 = 0 →
      (s.busRead (0x10000 + x) 4).hostData = (0 : BitVec 32) ++ s.kmemByte (x + 3) ++ s.kmemByte (x + 2) ++
        s.kmemByte (x + 1) ++ s.kmemByte x) ∧
    (∀ x, x < s.params.kmemSize → x % 8 = 0 →
      (s.busRead (0x10000 + x) 8).hostData = s.kmemByte (x + 7) ++ s.kmemByte (x + 6) ++ s.kmemByte (x + 5) ++
        s.kmemByte (x + 4) ++ s.kmemByte (x + 3) ++ s.kmemByte (x + 2) ++ s.kmemByte (x + 1) ++ s.kmemByte x)

/-- 70_reset_and_hazards.md R230, 20_memory.md R61: while a command is in flight, a read of a register it writes, whole or
of either half, returns the bits it covers of a fresh free value (the model's `Config.unspecified` at its count of draws,
notes/assumptions/6.md; zero-extended, notes/assumptions/3.md). A read of STATUS is exact in every bit but 5:4, whole or
by halves, and while HPHASE is being written those two bits are the free value's. -/
def Obligations.WriteSetReadsAreUnspecifiedWhileBusy : Prop :=
  ∀ (s : State) (w : CmdWord) (i : Instr), s.cur = some w → decode w = .ok i →
    let drawn (v : Word) : State := { s with draws := s.draws + 1, hostData := v }
    let free : Word := Config.unspecified s.draws
    (∀ r ∈ i.writes,
      s.busRead r.offset 8 = drawn free ∧
      s.busRead r.offset 4 = drawn ((0 : BitVec 32) ++ free.extractLsb' 0 32) ∧
      s.busRead (r.offset + 4) 4 = drawn ((0 : BitVec 32) ++ free.extractLsb' 32 32)) ∧
    ((s.busRead 0x018 8).hostData &&& ~~~(0x30 : Word)) = (s.regValue .status &&& ~~~(0x30 : Word)) ∧
    ((s.busRead 0x018 4).hostData &&& ~~~(0x30 : Word)) = (s.regValue .status &&& ~~~(0x30 : Word)) ∧
    (s.busRead 0x01C 4).hostData = 0 ∧
    (i.writesPhase = true →
      (s.busRead 0x018 8).hostData.extractLsb' 4 2 = free.extractLsb' 4 2 ∧
      (s.busRead 0x018 4).hostData.extractLsb' 4 2 = free.extractLsb' 4 2 ∧
      (s.busRead 0x018 8).draws = s.draws + 1 ∧ (s.busRead 0x018 4).draws = s.draws + 1 ∧
      (s.busRead 0x01C 4).draws = s.draws + 1)

/-- 60_exceptions.md R197, R193: while a command is in flight, every accepted write to an input register, to CMD or to
KMEM is dropped, records EBUSY with its window offset where ERR was 0, and changes nothing else; a write at 0x024 is
ignored. -/
def Obligations.BusyWritesAreDroppedWithEbusy : Prop :=
  ∀ (s : State) (v : Word), s.busy = true →
    let dropped (o : Nat) : State := { s with
      err := true
      errcode := if s.err then s.errcode else 0x03
      errinfo := if s.err then s.errinfo else ((1 : Word) <<< 63) ||| BitVec.ofNat 64 o }
    (∀ r : Reg, r.isInput = true →
      s.busWrite r.offset 8 v = dropped r.offset ∧ s.busWrite r.offset 4 v = dropped r.offset ∧
      s.busWrite (r.offset + 4) 4 v = dropped (r.offset + 4)) ∧
    (s.busWrite 0x020 8 v = dropped 0x020 ∧ s.busWrite 0x020 4 v = dropped 0x020 ∧ s.busWrite 0x024 4 v = s) ∧
    (∀ x n, n = 1 ∨ n = 2 ∨ n = 4 ∨ n = 8 → x < s.params.kmemSize → x % n = 0 →
      s.busWrite (0x10000 + x) n v = dropped (0x10000 + x))

/-- 10_state.md R44: a write to a read-only register or to a reserved register offset, whole or by halves, changes
nothing, in flight or not. -/
def Obligations.ReadOnlyAndReservedWritesAreIgnored : Prop :=
  ∀ (s : State) (v : Word) (o : Nat),
    o ∈ [0x000, 0x008, 0x028, 0x038, 0x058, 0x098, 0x0A0, 0x0A8, 0x0B0, 0x0B8, 0x0C0, 0x0C8, 0x0D0] ∨
      (0x0D8 ≤ o ∧ o ≤ 0xFF8 ∧ o % 8 = 0) →
    s.busWrite o 8 v = s ∧ s.busWrite o 4 v = s ∧ s.busWrite (o + 4) 4 v = s

/-- 20_memory.md R69, R70: an access at a reserved offset, or of a width or alignment the block does not accept, writes
nothing and reads 0. -/
def Obligations.UnacceptedAccessesAreIgnored : Prop :=
  ∀ (s : State) (o n : Nat) (v : Word), o < 0x20000 →
    (o < 0x1000 ∧ ¬ ((n = 8 ∧ o % 8 = 0) ∨ (n = 4 ∧ o % 4 = 0))) ∨
    (o < 0x1000 ∧ (o / 8 * 8 = 0x038 ∨ o / 8 * 8 = 0x058 ∨ 0x0D8 ≤ o)) ∨
    (0x1000 ≤ o ∧ o < 0x10000) ∨
    (0x10000 ≤ o ∧ o < 0x10000 + s.params.kmemSize ∧ ¬ ((n = 1 ∨ n = 2 ∨ n = 4 ∨ n = 8) ∧ o % n = 0)) ∨
    0x10000 + s.params.kmemSize ≤ o →
    s.busWrite o n v = s ∧ s.busRead o n = { s with hostData := 0 }

/-- 20_memory.md R62: an accepted KMEM read returns `MemRead`; an accepted KMEM write, while no command is in flight,
stores byte `j` of its data at offset `x + j`, and leaves every other byte and every register alone. -/
def Obligations.KmemAccessesMoveTheirBytes : Prop :=
  ∀ (s : State) (x n : Nat) (v : Word), n = 1 ∨ n = 2 ∨ n = 4 ∨ n = 8 → x < s.params.kmemSize → x % n = 0 →
    (s.busRead (0x10000 + x) n).hostData = memRead s.kmemByte x n ∧
    (s.busy = false →
      (∀ j, j < n → (s.busWrite (0x10000 + x) n v).kmemByte (x + j) = v.extractLsb' (8 * j) 8) ∧
      (∀ y, y < x ∨ x + n ≤ y → (s.busWrite (0x10000 + x) n v).kmemByte y = s.kmemByte y) ∧
      s.busWrite (0x10000 + x) n v = { s with kmem := (s.busWrite (0x10000 + x) n v).kmem })

/-- 20_memory.md R64: after an 8-byte KMEM write with no command in flight, a host read of every accepted width at each
aligned offset inside the 8 bytes, and the engine's read8, read4 and read3 at each offset from which they stay inside
them, see the bytes written. A narrow host read is zero-extended in `hostData` (notes/assumptions/3.md). -/
def Obligations.KmemReadsSeeTheBytesWritten : Prop :=
  ∀ (s : State) (x : Nat) (v : Word), s.busy = false → x < s.params.kmemSize → x % 8 = 0 →
    let t := s.busWrite (0x10000 + x) 8 v
    ((t.busRead (0x10000 + x) 8).hostData = v ∧
      (∀ j, j < 8 → (t.busRead (0x10000 + (x + j)) 1).hostData = (0 : BitVec 56) ++ v.extractLsb' (8 * j) 8) ∧
      (∀ j, j < 8 → j % 2 = 0 →
        (t.busRead (0x10000 + (x + j)) 2).hostData = (0 : BitVec 48) ++ v.extractLsb' (8 * j) 16) ∧
      (∀ j, j < 8 → j % 4 = 0 →
        (t.busRead (0x10000 + (x + j)) 4).hostData = (0 : BitVec 32) ++ v.extractLsb' (8 * j) 32)) ∧
    (read8 t.kmemByte x = v ∧
      (∀ j, j + 4 ≤ 8 → read4 t.kmemByte (x + j) = (0 : BitVec 32) ++ v.extractLsb' (8 * j) 32) ∧
      (∀ j k, 1 ≤ k → k ≤ 3 → j + k ≤ 8 →
        read3 t.kmemByte (x + j) k = (0 : BitVec 40) ++ v.extractLsb' (8 * j) 8 ++
          v.extractLsb' (8 * (j + k / 2)) 8 ++ v.extractLsb' (8 * (j + k - 1)) 8))

/-- 10_state.md R29, 60_exceptions.md R206: a STATUS write clears DONE by bit 1 and ERR with ERRCODE by bit 2, keeps
ERRINFO, is never dropped, and its upper half has no effect. -/
def Obligations.StatusWriteOneToClear : Prop :=
  ∀ (s : State) (v : Word) (n : Nat), n = 4 ∨ n = 8 →
    s.busWrite 0x018 n v = { s with
      done := if v.getLsbD 1 then false else s.done
      err := if v.getLsbD 2 then false else s.err
      errcode := if v.getLsbD 2 then 0 else s.errcode } ∧
    s.busWrite 0x01C 4 v = s

/-- 10_state.md R26: a CTRL write without SRST stores the two enables and nothing else, in flight or not; CTRL reads
them in bits 1:0 and 0 above; its upper half has no effect. -/
def Obligations.CtrlWriteStoresTheEnables : Prop :=
  ∀ (s : State) (v : Word) (n : Nat), n = 4 ∨ n = 8 → v.getLsbD 2 = false →
    s.busWrite 0x010 n v = { s with ieDone := v.getLsbD 0, ieErr := v.getLsbD 1 } ∧
    (s.busWrite 0x010 n v).regValue .ctrl = (0 : BitVec 62) ++ v.extractLsb' 0 2 ∧
    s.busWrite 0x014 4 v = s

/-- 20_memory.md R67, R61: while no command is in flight, a write to an input register replaces exactly the bits it
covers, changes no other register, no flag and no byte of KMEM. -/
def Obligations.InputRegisterWriteReplacesItsBits : Prop :=
  ∀ (s : State) (r q : Reg) (v : Word) (x : Nat), s.busy = false → r.isInput = true →
    (s.busWrite r.offset 8 v).regValue r = v ∧
    (s.busWrite r.offset 4 v).regValue r = (s.regValue r).extractLsb' 32 32 ++ v.extractLsb' 0 32 ∧
    (s.busWrite (r.offset + 4) 4 v).regValue r = v.extractLsb' 0 32 ++ (s.regValue r).extractLsb' 0 32 ∧
    (∀ t, t = s.busWrite r.offset 8 v ∨ t = s.busWrite r.offset 4 v ∨ t = s.busWrite (r.offset + 4) 4 v →
      (q ≠ r → t.regValue q = s.regValue q) ∧ t.kmemByte x = s.kmemByte x ∧ t.cur = s.cur ∧ t.hash = s.hash ∧
      t.params = s.params)

/-- 10_state.md R28, R41: the fields of STATUS, each at its bits, every other bit 0, with HPHASE 0 for NONE, 1 for CHUNK
and 2 for TAIL. -/
def Obligations.StatusFieldsStandAtTheirBits : Prop :=
  ∀ s : State,
    (s.regValue .status).toNat =
      s.busy.toNat + 2 * s.done.toNat + 4 * s.err.toNat +
        16 * (if s.hash.phase = .none then 0 else if s.hash.phase = .chunk then 1 else 2) + 256 * s.errcode.toNat ∧
    (s.hash.phase = .none ∨ s.hash.phase = .chunk ∨ s.hash.phase = .tail)

/-- 60_exceptions.md R200: the interrupt line is (DONE and IE_DONE) or (ERR and IE_ERR), read from the bits of STATUS and
CTRL. -/
def Obligations.InterruptFollowsStatusAndCtrl : Prop :=
  ∀ s : State,
    s.irq = (((s.regValue .status).getLsbD 1 && (s.regValue .ctrl).getLsbD 0) ||
      ((s.regValue .status).getLsbD 2 && (s.regValue .ctrl).getLsbD 1))

/-- 60_exceptions.md R190, R206: while ERR stays 1 ERRCODE and ERRINFO do not change. ERR goes from 1 to 0 only by a 32- or
64-bit host write with bit 2 set to STATUS (offset 0x018), which sets ERRCODE to 0 and keeps ERRINFO, or to CTRL (offset
0x010), which is a soft reset, or by a power-on turn (the model's own event, notes/assumptions/10.md). Where ERR stays 0,
ERRCODE is kept or 0, and ERRINFO is kept unless one of those two resets clears it. -/
def Obligations.FirstErrorWinsUntilCleared : Prop :=
  ∀ s t : State, step s = .next t →
    let poweredOn : Prop := (∃ turns, s.agenda = .powerOn :: turns) ∧ t = s.taken.powerOn
    let wrote (o : Nat) : Prop := ∃ n v turns, (n = 4 ∨ n = 8) ∧ v.getLsbD 2 = true ∧
      s.agenda = .host (.write (s.params.blockBase + o) n v) :: turns
    let softReset : Prop := wrote 0x010 ∧ t = s.taken.softReset
    (s.err = true → t.err = true → t.errcode = s.errcode ∧ t.errinfo = s.errinfo) ∧
    (s.err = true → t.err = false →
      poweredOn ∨ softReset ∨ (wrote 0x018 ∧ t.errcode = 0 ∧ t.errinfo = s.errinfo)) ∧
    (s.err = false → t.err = false →
      (t.errcode = s.errcode ∨ t.errcode = 0) ∧
      (t.errinfo = s.errinfo ∨ (t.errinfo = 0 ∧ (poweredOn ∨ softReset))))

/-- 20_memory.md R78: a step that leaves a command in flight leaves every input register, every byte of KMEM, and the
command word as they were. -/
def Obligations.InputsAreStableWhileBusy : Prop :=
  ∀ s t : State, step s = .next t → s.busy = true → t.busy = true →
    t.cur = s.cur ∧ (∀ r : Reg, r.isInput = true → t.regValue r = s.regValue r) ∧
    (∀ x, t.kmemByte x = s.kmemByte x) ∧ t.hash = s.hash

/-! Reset. -/

/-- 10_state.md R23, 70_reset_and_hazards.md R220: the reset value of every register, no command in flight, IRQ 0
(KMEM_SIZE at the default of 00_scope.md R7). The values of S0 to S3 are those of R33, which the spec itself marks as
general knowledge, not in its source: the model presumes them (notes/assumptions/16.md). -/
def Obligations.ResetLeavesTableValues : Prop :=
  (∀ r : Reg, State.reset.regValue r =
    if r = .id then 0x57594D5800070001
    else if r = .cfg then 16384
    else if r = .s0 then 3257665815644502181
    else if r = .s1 then 10067880064238660809
    else if r = .s2 then 5418857496715711651
    else if r = .s3 then 5573817676018592327
    else 0) ∧
  State.reset.cur = none ∧ State.reset.busy = false ∧ State.reset.hash.phase = .none ∧ State.reset.irq = false

/-- 70_reset_and_hazards.md R222, 10_state.md R27: a CTRL write with bit 2 set, whatever its other bits, resets every
register, discards an in-flight command without DONE, and keeps KMEM; it is never an EBUSY write. -/
def Obligations.SoftResetRestoresRegistersAndKeepsKmem : Prop :=
  ∀ (s : State) (v : Word) (n : Nat), n = 4 ∨ n = 8 → v.getLsbD 2 = true →
    (∀ r : Reg, (s.busWrite 0x010 n v).regValue r =
      if r = .cfg then s.regValue .cfg else State.reset.regValue r) ∧
    (s.busWrite 0x010 n v).regValue .ctrl = 0 ∧ (s.busWrite 0x010 n v).regValue .status = 0 ∧
    (s.busWrite 0x010 n v).cur = none ∧ (s.busWrite 0x010 n v).irq = false ∧
    (s.busWrite 0x010 n v).params = s.params ∧
    (∀ x, (s.busWrite 0x010 n v).kmemByte x = s.kmemByte x)

/-- 70_reset_and_hazards.md R220: a power-on turn (the model's own event, notes/assumptions/10.md) resets every register,
discards an in-flight command, and leaves every byte of KMEM a free value of a new draw (notes/assumptions/5.md). -/
def Obligations.PowerOnResetsAndRedrawsKmem : Prop :=
  ∀ (s : State) (turns : List Turn), s.agenda = .powerOn :: turns →
    ∃ t, step s = .next t ∧
      (∀ r : Reg, t.regValue r = if r = .cfg then s.regValue .cfg else State.reset.regValue r) ∧
      t.cur = none ∧ t.irq = false ∧ t.agenda = turns ∧ t.params = s.params ∧
      (∀ x, t.kmemByte x = Config.powerOnByte (s.powerOns + 1) x)

/-! Whole-machine rules. -/

/-- 70_reset_and_hazards.md R233: from every state with a command in flight, within one step more than the turns placed,
no command is in flight any more (the agenda and its default are the model's own, notes/assumptions/1.md). -/
def Obligations.CommandEndsWithinTheAgenda : Prop :=
  ∀ s : State, s.busy = true →
    ∃ k t, k ≤ s.agenda.length + 1 ∧ Host.Core.run Sys2Proof.core k s = .next t ∧ t.busy = false

/-- The invariant holds after reset. -/
def Obligations.ResetSatisfiesTheInvariant : Prop := State.reset.Inv

/-- 10_state.md R45, R28, R31, R43: every step from every state of the invariant keeps it: KMEM's canonical form and
bound, DONE 0 while BUSY, the form of the error record, and the hash sequencer's invariant. -/
def Obligations.StepKeepsTheInvariant : Prop :=
  ∀ s t : State, s.Inv → step s = .next t → t.Inv

/-- 10_state.md R45, 41_readers.md R127: under the sequencer's invariant a step command reads no byte outside the key it
latched: two states that differ in KMEM alone, and agree on the key bytes, end alike, each with its own KMEM. -/
def Obligations.HashStepsReadOnlyTheKeyBytes : Prop :=
  ∀ (s s' t : State) (i : Instr), s.sequencerOk → s' = { s with kmem := s'.kmem, powerOns := s'.powerOns } →
    (∀ x, s.hash.hbase.toNat ≤ x → x < s.hash.hbase.toNat + s.hash.hlen.toNat → s'.kmemByte x = s.kmemByte x) →
    i ∈ [.hchunk, .hfold, .htail, .hfinal] → exec i s = .next t →
      exec i s' = .next { t with kmem := s'.kmem, powerOns := s'.powerOns }
end

