-- ==== Sys2Proof/Laws/Decode.lean ====
section
/-! SUPPORT. The command word is its four fields, and what the opcode map gives on them (30_encoding.md R91, R92). -/

namespace Sys2Proof

/-- A command word is RSV, K, DST and OPC in this order (30_encoding.md R91). -/
theorem word_eq_fields (w : CmdWord) :
    w = fieldRsv w ++ fieldK w ++ BitVec.ofBool (fieldDst w) ++ fieldOpc w := by
  apply BitVec.eq_of_getLsbD_eq
  intro i hi
  simp only [fieldRsv, fieldK, fieldDst, fieldOpc, BitVec.getLsbD_append, BitVec.getLsbD_extractLsb',
    BitVec.getLsbD_ofBool]
  by_cases h1 : i < 8
  · simp [h1]
  · by_cases h2 : i = 8
    · subst h2
      simp
    · by_cases h3 : i < 11
      · have h4 : ¬ i - 8 < 1 := by omega
        have h5 : i - 8 - 1 < 2 := by omega
        have h6 : 9 + (i - 8 - 1) = i := by omega
        simp [h1, h4, h5, h6]
      · have h4 : ¬ i - 8 < 1 := by omega
        have h5 : ¬ i - 8 - 1 < 2 := by omega
        have h6 : i - 8 - 1 - 2 < 21 := by omega
        have h7 : 11 + (i - 8 - 1 - 2) = i := by omega
        simp [h1, h4, h5, h6, h7]

end Sys2Proof
end

