-- ==== Sys2Proof/Laws/State.lean ====
section
/-! SUPPORT. One lemma per field per update of State, true by unfolding, so that no later proof unfolds a record
update. An update whose result depends on its operand (setReg, setDst, writeCtrl) has its lemmas in Laws/Exec.lean. -/

namespace Sys2Proof.Machine

section
variable (s : State)

/-! complete -/

@[simp] theorem State.complete_params : (s.complete).params = s.params := rfl
@[simp] theorem State.complete_ieDone : (s.complete).ieDone = s.ieDone := rfl
@[simp] theorem State.complete_ieErr : (s.complete).ieErr = s.ieErr := rfl
@[simp] theorem State.complete_done : (s.complete).done = true := rfl
@[simp] theorem State.complete_err : (s.complete).err = s.err := rfl
@[simp] theorem State.complete_errcode : (s.complete).errcode = s.errcode := rfl
@[simp] theorem State.complete_errinfo : (s.complete).errinfo = s.errinfo := rfl
@[simp] theorem State.complete_cur : (s.complete).cur = Option.none := rfl
@[simp] theorem State.complete_off : (s.complete).off = s.off := rfl
@[simp] theorem State.complete_a : (s.complete).a = s.a := rfl
@[simp] theorem State.complete_b : (s.complete).b = s.b := rfl
@[simp] theorem State.complete_n : (s.complete).n = s.n := rfl
@[simp] theorem State.complete_secret : (s.complete).secret = s.secret := rfl
@[simp] theorem State.complete_seed : (s.complete).seed = s.seed := rfl
@[simp] theorem State.complete_koff : (s.complete).koff = s.koff := rfl
@[simp] theorem State.complete_len : (s.complete).len = s.len := rfl
@[simp] theorem State.complete_hash : (s.complete).hash = s.hash := rfl
@[simp] theorem State.complete_kmem : (s.complete).kmem = s.kmem := rfl
@[simp] theorem State.complete_powerOns : (s.complete).powerOns = s.powerOns := rfl
@[simp] theorem State.complete_draws : (s.complete).draws = s.draws := rfl
@[simp] theorem State.complete_agenda : (s.complete).agenda = s.agenda := rfl
@[simp] theorem State.complete_hostData : (s.complete).hostData = s.hostData := rfl

/-! issue -/

@[simp] theorem State.issue_params (w : CmdWord) : (s.issue w).params = s.params := rfl
@[simp] theorem State.issue_ieDone (w : CmdWord) : (s.issue w).ieDone = s.ieDone := rfl
@[simp] theorem State.issue_ieErr (w : CmdWord) : (s.issue w).ieErr = s.ieErr := rfl
@[simp] theorem State.issue_done (w : CmdWord) : (s.issue w).done = false := rfl
@[simp] theorem State.issue_err (w : CmdWord) : (s.issue w).err = s.err := rfl
@[simp] theorem State.issue_errcode (w : CmdWord) : (s.issue w).errcode = s.errcode := rfl
@[simp] theorem State.issue_errinfo (w : CmdWord) : (s.issue w).errinfo = s.errinfo := rfl
@[simp] theorem State.issue_cur (w : CmdWord) : (s.issue w).cur = some w := rfl
@[simp] theorem State.issue_off (w : CmdWord) : (s.issue w).off = s.off := rfl
@[simp] theorem State.issue_a (w : CmdWord) : (s.issue w).a = s.a := rfl
@[simp] theorem State.issue_b (w : CmdWord) : (s.issue w).b = s.b := rfl
@[simp] theorem State.issue_n (w : CmdWord) : (s.issue w).n = s.n := rfl
@[simp] theorem State.issue_secret (w : CmdWord) : (s.issue w).secret = s.secret := rfl
@[simp] theorem State.issue_seed (w : CmdWord) : (s.issue w).seed = s.seed := rfl
@[simp] theorem State.issue_koff (w : CmdWord) : (s.issue w).koff = s.koff := rfl
@[simp] theorem State.issue_len (w : CmdWord) : (s.issue w).len = s.len := rfl
@[simp] theorem State.issue_hash (w : CmdWord) : (s.issue w).hash = s.hash := rfl
@[simp] theorem State.issue_kmem (w : CmdWord) : (s.issue w).kmem = s.kmem := rfl
@[simp] theorem State.issue_powerOns (w : CmdWord) : (s.issue w).powerOns = s.powerOns := rfl
@[simp] theorem State.issue_draws (w : CmdWord) : (s.issue w).draws = s.draws := rfl
@[simp] theorem State.issue_agenda (w : CmdWord) : (s.issue w).agenda = s.agenda := rfl
@[simp] theorem State.issue_hostData (w : CmdWord) : (s.issue w).hostData = s.hostData := rfl

/-! setA -/

@[simp] theorem State.setA_params (v : Word) : (s.setA v).params = s.params := rfl
@[simp] theorem State.setA_ieDone (v : Word) : (s.setA v).ieDone = s.ieDone := rfl
@[simp] theorem State.setA_ieErr (v : Word) : (s.setA v).ieErr = s.ieErr := rfl
@[simp] theorem State.setA_done (v : Word) : (s.setA v).done = s.done := rfl
@[simp] theorem State.setA_err (v : Word) : (s.setA v).err = s.err := rfl
@[simp] theorem State.setA_errcode (v : Word) : (s.setA v).errcode = s.errcode := rfl
@[simp] theorem State.setA_errinfo (v : Word) : (s.setA v).errinfo = s.errinfo := rfl
@[simp] theorem State.setA_cur (v : Word) : (s.setA v).cur = s.cur := rfl
@[simp] theorem State.setA_off (v : Word) : (s.setA v).off = s.off := rfl
@[simp] theorem State.setA_a (v : Word) : (s.setA v).a = v := rfl
@[simp] theorem State.setA_b (v : Word) : (s.setA v).b = s.b := rfl
@[simp] theorem State.setA_n (v : Word) : (s.setA v).n = s.n := rfl
@[simp] theorem State.setA_secret (v : Word) : (s.setA v).secret = s.secret := rfl
@[simp] theorem State.setA_seed (v : Word) : (s.setA v).seed = s.seed := rfl
@[simp] theorem State.setA_koff (v : Word) : (s.setA v).koff = s.koff := rfl
@[simp] theorem State.setA_len (v : Word) : (s.setA v).len = s.len := rfl
@[simp] theorem State.setA_hash (v : Word) : (s.setA v).hash = s.hash := rfl
@[simp] theorem State.setA_kmem (v : Word) : (s.setA v).kmem = s.kmem := rfl
@[simp] theorem State.setA_powerOns (v : Word) : (s.setA v).powerOns = s.powerOns := rfl
@[simp] theorem State.setA_draws (v : Word) : (s.setA v).draws = s.draws := rfl
@[simp] theorem State.setA_agenda (v : Word) : (s.setA v).agenda = s.agenda := rfl
@[simp] theorem State.setA_hostData (v : Word) : (s.setA v).hostData = s.hostData := rfl

/-! setAB -/

@[simp] theorem State.setAB_params (va vb : Word) : (s.setAB va vb).params = s.params := rfl
@[simp] theorem State.setAB_ieDone (va vb : Word) : (s.setAB va vb).ieDone = s.ieDone := rfl
@[simp] theorem State.setAB_ieErr (va vb : Word) : (s.setAB va vb).ieErr = s.ieErr := rfl
@[simp] theorem State.setAB_done (va vb : Word) : (s.setAB va vb).done = s.done := rfl
@[simp] theorem State.setAB_err (va vb : Word) : (s.setAB va vb).err = s.err := rfl
@[simp] theorem State.setAB_errcode (va vb : Word) : (s.setAB va vb).errcode = s.errcode := rfl
@[simp] theorem State.setAB_errinfo (va vb : Word) : (s.setAB va vb).errinfo = s.errinfo := rfl
@[simp] theorem State.setAB_cur (va vb : Word) : (s.setAB va vb).cur = s.cur := rfl
@[simp] theorem State.setAB_off (va vb : Word) : (s.setAB va vb).off = s.off := rfl
@[simp] theorem State.setAB_a (va vb : Word) : (s.setAB va vb).a = va := rfl
@[simp] theorem State.setAB_b (va vb : Word) : (s.setAB va vb).b = vb := rfl
@[simp] theorem State.setAB_n (va vb : Word) : (s.setAB va vb).n = s.n := rfl
@[simp] theorem State.setAB_secret (va vb : Word) : (s.setAB va vb).secret = s.secret := rfl
@[simp] theorem State.setAB_seed (va vb : Word) : (s.setAB va vb).seed = s.seed := rfl
@[simp] theorem State.setAB_koff (va vb : Word) : (s.setAB va vb).koff = s.koff := rfl
@[simp] theorem State.setAB_len (va vb : Word) : (s.setAB va vb).len = s.len := rfl
@[simp] theorem State.setAB_hash (va vb : Word) : (s.setAB va vb).hash = s.hash := rfl
@[simp] theorem State.setAB_kmem (va vb : Word) : (s.setAB va vb).kmem = s.kmem := rfl
@[simp] theorem State.setAB_powerOns (va vb : Word) : (s.setAB va vb).powerOns = s.powerOns := rfl
@[simp] theorem State.setAB_draws (va vb : Word) : (s.setAB va vb).draws = s.draws := rfl
@[simp] theorem State.setAB_agenda (va vb : Word) : (s.setAB va vb).agenda = s.agenda := rfl
@[simp] theorem State.setAB_hostData (va vb : Word) : (s.setAB va vb).hostData = s.hostData := rfl

/-! setHash -/

@[simp] theorem State.setHash_params (u : HashUnit) : (s.setHash u).params = s.params := rfl
@[simp] theorem State.setHash_ieDone (u : HashUnit) : (s.setHash u).ieDone = s.ieDone := rfl
@[simp] theorem State.setHash_ieErr (u : HashUnit) : (s.setHash u).ieErr = s.ieErr := rfl
@[simp] theorem State.setHash_done (u : HashUnit) : (s.setHash u).done = s.done := rfl
@[simp] theorem State.setHash_err (u : HashUnit) : (s.setHash u).err = s.err := rfl
@[simp] theorem State.setHash_errcode (u : HashUnit) : (s.setHash u).errcode = s.errcode := rfl
@[simp] theorem State.setHash_errinfo (u : HashUnit) : (s.setHash u).errinfo = s.errinfo := rfl
@[simp] theorem State.setHash_cur (u : HashUnit) : (s.setHash u).cur = s.cur := rfl
@[simp] theorem State.setHash_off (u : HashUnit) : (s.setHash u).off = s.off := rfl
@[simp] theorem State.setHash_a (u : HashUnit) : (s.setHash u).a = s.a := rfl
@[simp] theorem State.setHash_b (u : HashUnit) : (s.setHash u).b = s.b := rfl
@[simp] theorem State.setHash_n (u : HashUnit) : (s.setHash u).n = s.n := rfl
@[simp] theorem State.setHash_secret (u : HashUnit) : (s.setHash u).secret = s.secret := rfl
@[simp] theorem State.setHash_seed (u : HashUnit) : (s.setHash u).seed = s.seed := rfl
@[simp] theorem State.setHash_koff (u : HashUnit) : (s.setHash u).koff = s.koff := rfl
@[simp] theorem State.setHash_len (u : HashUnit) : (s.setHash u).len = s.len := rfl
@[simp] theorem State.setHash_hash (u : HashUnit) : (s.setHash u).hash = u := rfl
@[simp] theorem State.setHash_kmem (u : HashUnit) : (s.setHash u).kmem = s.kmem := rfl
@[simp] theorem State.setHash_powerOns (u : HashUnit) : (s.setHash u).powerOns = s.powerOns := rfl
@[simp] theorem State.setHash_draws (u : HashUnit) : (s.setHash u).draws = s.draws := rfl
@[simp] theorem State.setHash_agenda (u : HashUnit) : (s.setHash u).agenda = s.agenda := rfl
@[simp] theorem State.setHash_hostData (u : HashUnit) : (s.setHash u).hostData = s.hostData := rfl

/-! storeKmem -/

@[simp] theorem State.storeKmem_params (i n : Nat) (v : Word) : (s.storeKmem i n v).params = s.params := rfl
@[simp] theorem State.storeKmem_ieDone (i n : Nat) (v : Word) : (s.storeKmem i n v).ieDone = s.ieDone := rfl
@[simp] theorem State.storeKmem_ieErr (i n : Nat) (v : Word) : (s.storeKmem i n v).ieErr = s.ieErr := rfl
@[simp] theorem State.storeKmem_done (i n : Nat) (v : Word) : (s.storeKmem i n v).done = s.done := rfl
@[simp] theorem State.storeKmem_err (i n : Nat) (v : Word) : (s.storeKmem i n v).err = s.err := rfl
@[simp] theorem State.storeKmem_errcode (i n : Nat) (v : Word) : (s.storeKmem i n v).errcode = s.errcode := rfl
@[simp] theorem State.storeKmem_errinfo (i n : Nat) (v : Word) : (s.storeKmem i n v).errinfo = s.errinfo := rfl
@[simp] theorem State.storeKmem_cur (i n : Nat) (v : Word) : (s.storeKmem i n v).cur = s.cur := rfl
@[simp] theorem State.storeKmem_off (i n : Nat) (v : Word) : (s.storeKmem i n v).off = s.off := rfl
@[simp] theorem State.storeKmem_a (i n : Nat) (v : Word) : (s.storeKmem i n v).a = s.a := rfl
@[simp] theorem State.storeKmem_b (i n : Nat) (v : Word) : (s.storeKmem i n v).b = s.b := rfl
@[simp] theorem State.storeKmem_n (i n : Nat) (v : Word) : (s.storeKmem i n v).n = s.n := rfl
@[simp] theorem State.storeKmem_secret (i n : Nat) (v : Word) : (s.storeKmem i n v).secret = s.secret := rfl
@[simp] theorem State.storeKmem_seed (i n : Nat) (v : Word) : (s.storeKmem i n v).seed = s.seed := rfl
@[simp] theorem State.storeKmem_koff (i n : Nat) (v : Word) : (s.storeKmem i n v).koff = s.koff := rfl
@[simp] theorem State.storeKmem_len (i n : Nat) (v : Word) : (s.storeKmem i n v).len = s.len := rfl
@[simp] theorem State.storeKmem_hash (i n : Nat) (v : Word) : (s.storeKmem i n v).hash = s.hash := rfl
@[simp] theorem State.storeKmem_kmem (i n : Nat) (v : Word) : (s.storeKmem i n v).kmem = s.kmem.store i n v := rfl
@[simp] theorem State.storeKmem_powerOns (i n : Nat) (v : Word) : (s.storeKmem i n v).powerOns = s.powerOns := rfl
@[simp] theorem State.storeKmem_draws (i n : Nat) (v : Word) : (s.storeKmem i n v).draws = s.draws := rfl
@[simp] theorem State.storeKmem_agenda (i n : Nat) (v : Word) : (s.storeKmem i n v).agenda = s.agenda := rfl
@[simp] theorem State.storeKmem_hostData (i n : Nat) (v : Word) : (s.storeKmem i n v).hostData = s.hostData := rfl

/-! recordError -/

@[simp] theorem State.recordError_params (e : ErrCode) (info : Word) : (s.recordError e info).params = s.params := rfl
@[simp] theorem State.recordError_ieDone (e : ErrCode) (info : Word) : (s.recordError e info).ieDone = s.ieDone := rfl
@[simp] theorem State.recordError_ieErr (e : ErrCode) (info : Word) : (s.recordError e info).ieErr = s.ieErr := rfl
@[simp] theorem State.recordError_done (e : ErrCode) (info : Word) : (s.recordError e info).done = s.done := rfl
@[simp] theorem State.recordError_err (e : ErrCode) (info : Word) : (s.recordError e info).err = true := rfl
@[simp] theorem State.recordError_errcode (e : ErrCode) (info : Word) : (s.recordError e info).errcode = if s.err then s.errcode else e.code := rfl
@[simp] theorem State.recordError_errinfo (e : ErrCode) (info : Word) : (s.recordError e info).errinfo = if s.err then s.errinfo else info := rfl
@[simp] theorem State.recordError_cur (e : ErrCode) (info : Word) : (s.recordError e info).cur = s.cur := rfl
@[simp] theorem State.recordError_off (e : ErrCode) (info : Word) : (s.recordError e info).off = s.off := rfl
@[simp] theorem State.recordError_a (e : ErrCode) (info : Word) : (s.recordError e info).a = s.a := rfl
@[simp] theorem State.recordError_b (e : ErrCode) (info : Word) : (s.recordError e info).b = s.b := rfl
@[simp] theorem State.recordError_n (e : ErrCode) (info : Word) : (s.recordError e info).n = s.n := rfl
@[simp] theorem State.recordError_secret (e : ErrCode) (info : Word) : (s.recordError e info).secret = s.secret := rfl
@[simp] theorem State.recordError_seed (e : ErrCode) (info : Word) : (s.recordError e info).seed = s.seed := rfl
@[simp] theorem State.recordError_koff (e : ErrCode) (info : Word) : (s.recordError e info).koff = s.koff := rfl
@[simp] theorem State.recordError_len (e : ErrCode) (info : Word) : (s.recordError e info).len = s.len := rfl
@[simp] theorem State.recordError_hash (e : ErrCode) (info : Word) : (s.recordError e info).hash = s.hash := rfl
@[simp] theorem State.recordError_kmem (e : ErrCode) (info : Word) : (s.recordError e info).kmem = s.kmem := rfl
@[simp] theorem State.recordError_powerOns (e : ErrCode) (info : Word) : (s.recordError e info).powerOns = s.powerOns := rfl
@[simp] theorem State.recordError_draws (e : ErrCode) (info : Word) : (s.recordError e info).draws = s.draws := rfl
@[simp] theorem State.recordError_agenda (e : ErrCode) (info : Word) : (s.recordError e info).agenda = s.agenda := rfl
@[simp] theorem State.recordError_hostData (e : ErrCode) (info : Word) : (s.recordError e info).hostData = s.hostData := rfl

/-! writeStatus -/

@[simp] theorem State.writeStatus_params (v : Word) : (s.writeStatus v).params = s.params := rfl
@[simp] theorem State.writeStatus_ieDone (v : Word) : (s.writeStatus v).ieDone = s.ieDone := rfl
@[simp] theorem State.writeStatus_ieErr (v : Word) : (s.writeStatus v).ieErr = s.ieErr := rfl
@[simp] theorem State.writeStatus_done (v : Word) : (s.writeStatus v).done = (s.done && !v.getLsbD 1) := rfl
@[simp] theorem State.writeStatus_err (v : Word) : (s.writeStatus v).err = (s.err && !v.getLsbD 2) := rfl
@[simp] theorem State.writeStatus_errcode (v : Word) : (s.writeStatus v).errcode = if v.getLsbD 2 then 0 else s.errcode := rfl
@[simp] theorem State.writeStatus_errinfo (v : Word) : (s.writeStatus v).errinfo = s.errinfo := rfl
@[simp] theorem State.writeStatus_cur (v : Word) : (s.writeStatus v).cur = s.cur := rfl
@[simp] theorem State.writeStatus_off (v : Word) : (s.writeStatus v).off = s.off := rfl
@[simp] theorem State.writeStatus_a (v : Word) : (s.writeStatus v).a = s.a := rfl
@[simp] theorem State.writeStatus_b (v : Word) : (s.writeStatus v).b = s.b := rfl
@[simp] theorem State.writeStatus_n (v : Word) : (s.writeStatus v).n = s.n := rfl
@[simp] theorem State.writeStatus_secret (v : Word) : (s.writeStatus v).secret = s.secret := rfl
@[simp] theorem State.writeStatus_seed (v : Word) : (s.writeStatus v).seed = s.seed := rfl
@[simp] theorem State.writeStatus_koff (v : Word) : (s.writeStatus v).koff = s.koff := rfl
@[simp] theorem State.writeStatus_len (v : Word) : (s.writeStatus v).len = s.len := rfl
@[simp] theorem State.writeStatus_hash (v : Word) : (s.writeStatus v).hash = s.hash := rfl
@[simp] theorem State.writeStatus_kmem (v : Word) : (s.writeStatus v).kmem = s.kmem := rfl
@[simp] theorem State.writeStatus_powerOns (v : Word) : (s.writeStatus v).powerOns = s.powerOns := rfl
@[simp] theorem State.writeStatus_draws (v : Word) : (s.writeStatus v).draws = s.draws := rfl
@[simp] theorem State.writeStatus_agenda (v : Word) : (s.writeStatus v).agenda = s.agenda := rfl
@[simp] theorem State.writeStatus_hostData (v : Word) : (s.writeStatus v).hostData = s.hostData := rfl

/-! softReset -/

@[simp] theorem State.softReset_params : (s.softReset).params = s.params := rfl
@[simp] theorem State.softReset_ieDone : (s.softReset).ieDone = State.reset.ieDone := rfl
@[simp] theorem State.softReset_ieErr : (s.softReset).ieErr = State.reset.ieErr := rfl
@[simp] theorem State.softReset_done : (s.softReset).done = State.reset.done := rfl
@[simp] theorem State.softReset_err : (s.softReset).err = State.reset.err := rfl
@[simp] theorem State.softReset_errcode : (s.softReset).errcode = State.reset.errcode := rfl
@[simp] theorem State.softReset_errinfo : (s.softReset).errinfo = State.reset.errinfo := rfl
@[simp] theorem State.softReset_cur : (s.softReset).cur = State.reset.cur := rfl
@[simp] theorem State.softReset_off : (s.softReset).off = State.reset.off := rfl
@[simp] theorem State.softReset_a : (s.softReset).a = State.reset.a := rfl
@[simp] theorem State.softReset_b : (s.softReset).b = State.reset.b := rfl
@[simp] theorem State.softReset_n : (s.softReset).n = State.reset.n := rfl
@[simp] theorem State.softReset_secret : (s.softReset).secret = State.reset.secret := rfl
@[simp] theorem State.softReset_seed : (s.softReset).seed = State.reset.seed := rfl
@[simp] theorem State.softReset_koff : (s.softReset).koff = State.reset.koff := rfl
@[simp] theorem State.softReset_len : (s.softReset).len = State.reset.len := rfl
@[simp] theorem State.softReset_hash : (s.softReset).hash = State.reset.hash := rfl
@[simp] theorem State.softReset_kmem : (s.softReset).kmem = s.kmem := rfl
@[simp] theorem State.softReset_powerOns : (s.softReset).powerOns = s.powerOns := rfl
@[simp] theorem State.softReset_draws : (s.softReset).draws = s.draws := rfl
@[simp] theorem State.softReset_agenda : (s.softReset).agenda = s.agenda := rfl
@[simp] theorem State.softReset_hostData : (s.softReset).hostData = s.hostData := rfl

/-! powerOn -/

@[simp] theorem State.powerOn_params : (s.powerOn).params = s.params := rfl
@[simp] theorem State.powerOn_ieDone : (s.powerOn).ieDone = State.reset.ieDone := rfl
@[simp] theorem State.powerOn_ieErr : (s.powerOn).ieErr = State.reset.ieErr := rfl
@[simp] theorem State.powerOn_done : (s.powerOn).done = State.reset.done := rfl
@[simp] theorem State.powerOn_err : (s.powerOn).err = State.reset.err := rfl
@[simp] theorem State.powerOn_errcode : (s.powerOn).errcode = State.reset.errcode := rfl
@[simp] theorem State.powerOn_errinfo : (s.powerOn).errinfo = State.reset.errinfo := rfl
@[simp] theorem State.powerOn_cur : (s.powerOn).cur = State.reset.cur := rfl
@[simp] theorem State.powerOn_off : (s.powerOn).off = State.reset.off := rfl
@[simp] theorem State.powerOn_a : (s.powerOn).a = State.reset.a := rfl
@[simp] theorem State.powerOn_b : (s.powerOn).b = State.reset.b := rfl
@[simp] theorem State.powerOn_n : (s.powerOn).n = State.reset.n := rfl
@[simp] theorem State.powerOn_secret : (s.powerOn).secret = State.reset.secret := rfl
@[simp] theorem State.powerOn_seed : (s.powerOn).seed = State.reset.seed := rfl
@[simp] theorem State.powerOn_koff : (s.powerOn).koff = State.reset.koff := rfl
@[simp] theorem State.powerOn_len : (s.powerOn).len = State.reset.len := rfl
@[simp] theorem State.powerOn_hash : (s.powerOn).hash = State.reset.hash := rfl
@[simp] theorem State.powerOn_kmem : (s.powerOn).kmem = State.reset.kmem := rfl
@[simp] theorem State.powerOn_powerOns : (s.powerOn).powerOns = s.powerOns + 1 := rfl
@[simp] theorem State.powerOn_draws : (s.powerOn).draws = s.draws := rfl
@[simp] theorem State.powerOn_agenda : (s.powerOn).agenda = s.agenda := rfl
@[simp] theorem State.powerOn_hostData : (s.powerOn).hostData = s.hostData := rfl

/-! countDraw -/

@[simp] theorem State.countDraw_params : (s.countDraw).params = s.params := rfl
@[simp] theorem State.countDraw_ieDone : (s.countDraw).ieDone = s.ieDone := rfl
@[simp] theorem State.countDraw_ieErr : (s.countDraw).ieErr = s.ieErr := rfl
@[simp] theorem State.countDraw_done : (s.countDraw).done = s.done := rfl
@[simp] theorem State.countDraw_err : (s.countDraw).err = s.err := rfl
@[simp] theorem State.countDraw_errcode : (s.countDraw).errcode = s.errcode := rfl
@[simp] theorem State.countDraw_errinfo : (s.countDraw).errinfo = s.errinfo := rfl
@[simp] theorem State.countDraw_cur : (s.countDraw).cur = s.cur := rfl
@[simp] theorem State.countDraw_off : (s.countDraw).off = s.off := rfl
@[simp] theorem State.countDraw_a : (s.countDraw).a = s.a := rfl
@[simp] theorem State.countDraw_b : (s.countDraw).b = s.b := rfl
@[simp] theorem State.countDraw_n : (s.countDraw).n = s.n := rfl
@[simp] theorem State.countDraw_secret : (s.countDraw).secret = s.secret := rfl
@[simp] theorem State.countDraw_seed : (s.countDraw).seed = s.seed := rfl
@[simp] theorem State.countDraw_koff : (s.countDraw).koff = s.koff := rfl
@[simp] theorem State.countDraw_len : (s.countDraw).len = s.len := rfl
@[simp] theorem State.countDraw_hash : (s.countDraw).hash = s.hash := rfl
@[simp] theorem State.countDraw_kmem : (s.countDraw).kmem = s.kmem := rfl
@[simp] theorem State.countDraw_powerOns : (s.countDraw).powerOns = s.powerOns := rfl
@[simp] theorem State.countDraw_draws : (s.countDraw).draws = s.draws + 1 := rfl
@[simp] theorem State.countDraw_agenda : (s.countDraw).agenda = s.agenda := rfl
@[simp] theorem State.countDraw_hostData : (s.countDraw).hostData = s.hostData := rfl

/-! answer -/

@[simp] theorem State.answer_params (v : Word) : (s.answer v).params = s.params := rfl
@[simp] theorem State.answer_ieDone (v : Word) : (s.answer v).ieDone = s.ieDone := rfl
@[simp] theorem State.answer_ieErr (v : Word) : (s.answer v).ieErr = s.ieErr := rfl
@[simp] theorem State.answer_done (v : Word) : (s.answer v).done = s.done := rfl
@[simp] theorem State.answer_err (v : Word) : (s.answer v).err = s.err := rfl
@[simp] theorem State.answer_errcode (v : Word) : (s.answer v).errcode = s.errcode := rfl
@[simp] theorem State.answer_errinfo (v : Word) : (s.answer v).errinfo = s.errinfo := rfl
@[simp] theorem State.answer_cur (v : Word) : (s.answer v).cur = s.cur := rfl
@[simp] theorem State.answer_off (v : Word) : (s.answer v).off = s.off := rfl
@[simp] theorem State.answer_a (v : Word) : (s.answer v).a = s.a := rfl
@[simp] theorem State.answer_b (v : Word) : (s.answer v).b = s.b := rfl
@[simp] theorem State.answer_n (v : Word) : (s.answer v).n = s.n := rfl
@[simp] theorem State.answer_secret (v : Word) : (s.answer v).secret = s.secret := rfl
@[simp] theorem State.answer_seed (v : Word) : (s.answer v).seed = s.seed := rfl
@[simp] theorem State.answer_koff (v : Word) : (s.answer v).koff = s.koff := rfl
@[simp] theorem State.answer_len (v : Word) : (s.answer v).len = s.len := rfl
@[simp] theorem State.answer_hash (v : Word) : (s.answer v).hash = s.hash := rfl
@[simp] theorem State.answer_kmem (v : Word) : (s.answer v).kmem = s.kmem := rfl
@[simp] theorem State.answer_powerOns (v : Word) : (s.answer v).powerOns = s.powerOns := rfl
@[simp] theorem State.answer_draws (v : Word) : (s.answer v).draws = s.draws := rfl
@[simp] theorem State.answer_agenda (v : Word) : (s.answer v).agenda = s.agenda := rfl
@[simp] theorem State.answer_hostData (v : Word) : (s.answer v).hostData = v := rfl

/-! setAgenda -/

@[simp] theorem State.setAgenda_params (turns : List Turn) : (s.setAgenda turns).params = s.params := rfl
@[simp] theorem State.setAgenda_ieDone (turns : List Turn) : (s.setAgenda turns).ieDone = s.ieDone := rfl
@[simp] theorem State.setAgenda_ieErr (turns : List Turn) : (s.setAgenda turns).ieErr = s.ieErr := rfl
@[simp] theorem State.setAgenda_done (turns : List Turn) : (s.setAgenda turns).done = s.done := rfl
@[simp] theorem State.setAgenda_err (turns : List Turn) : (s.setAgenda turns).err = s.err := rfl
@[simp] theorem State.setAgenda_errcode (turns : List Turn) : (s.setAgenda turns).errcode = s.errcode := rfl
@[simp] theorem State.setAgenda_errinfo (turns : List Turn) : (s.setAgenda turns).errinfo = s.errinfo := rfl
@[simp] theorem State.setAgenda_cur (turns : List Turn) : (s.setAgenda turns).cur = s.cur := rfl
@[simp] theorem State.setAgenda_off (turns : List Turn) : (s.setAgenda turns).off = s.off := rfl
@[simp] theorem State.setAgenda_a (turns : List Turn) : (s.setAgenda turns).a = s.a := rfl
@[simp] theorem State.setAgenda_b (turns : List Turn) : (s.setAgenda turns).b = s.b := rfl
@[simp] theorem State.setAgenda_n (turns : List Turn) : (s.setAgenda turns).n = s.n := rfl
@[simp] theorem State.setAgenda_secret (turns : List Turn) : (s.setAgenda turns).secret = s.secret := rfl
@[simp] theorem State.setAgenda_seed (turns : List Turn) : (s.setAgenda turns).seed = s.seed := rfl
@[simp] theorem State.setAgenda_koff (turns : List Turn) : (s.setAgenda turns).koff = s.koff := rfl
@[simp] theorem State.setAgenda_len (turns : List Turn) : (s.setAgenda turns).len = s.len := rfl
@[simp] theorem State.setAgenda_hash (turns : List Turn) : (s.setAgenda turns).hash = s.hash := rfl
@[simp] theorem State.setAgenda_kmem (turns : List Turn) : (s.setAgenda turns).kmem = s.kmem := rfl
@[simp] theorem State.setAgenda_powerOns (turns : List Turn) : (s.setAgenda turns).powerOns = s.powerOns := rfl
@[simp] theorem State.setAgenda_draws (turns : List Turn) : (s.setAgenda turns).draws = s.draws := rfl
@[simp] theorem State.setAgenda_agenda (turns : List Turn) : (s.setAgenda turns).agenda = turns := rfl
@[simp] theorem State.setAgenda_hostData (turns : List Turn) : (s.setAgenda turns).hostData = s.hostData := rfl

end

end Sys2Proof.Machine
end

