-- ==== Sys2Proof/Laws/Memory.lean ====
section
/-! SUPPORT. Key memory: a read after a write, that a write leaves every other byte alone, and that every operation
keeps the canonical form and the bound. -/

namespace Sys2Proof.Machine

theorem Memory.find_put (m : Memory) (i j : Nat) (v : Byte) :
    (m.put i v).find j = if j = i then some v else m.find j := by
  induction m with
  | nil => simp [Memory.put, Memory.find]
  | cons c m ih =>
    obtain ⟨k, w⟩ := c
    rcases lt_trichotomy i k with h | h | h
    · simp [Memory.put, h, Memory.find]
    · subst h
      by_cases hj : j = i <;> simp [Memory.put, Memory.find, hj]
    · have h1 : ¬ i < k := by omega
      have h2 : i ≠ k := by omega
      by_cases hj : j = k
      · subst hj
        have h3 : j ≠ i := by omega
        simp [Memory.put, Memory.find, h1, h2, h3]
      · simp [Memory.put, Memory.find, h1, h2, hj, ih]

/-- A byte store of `n` bytes at `i` changes exactly the bytes `i .. i + n - 1` (20_memory.md R62). -/
theorem Memory.find_store (m : Memory) (i j n : Nat) (v : Word) :
    (m.store i n v).find j = if i ≤ j ∧ j < i + n then some (v.extractLsb' (8 * (j - i)) 8) else m.find j := by
  induction n with
  | zero => simp [Memory.store]
  | succ n ih =>
    rw [Memory.store, Memory.find_put, ih]
    by_cases hj : j = i + n
    · subst hj
      have h1 : i ≤ i + n ∧ i + n < i + (n + 1) := by omega
      simp
    · by_cases h : i ≤ j ∧ j < i + n
      · have h' : i ≤ j ∧ j < i + (n + 1) := by omega
        rw [if_neg hj, if_pos h, if_pos h']
      · have h' : ¬ (i ≤ j ∧ j < i + (n + 1)) := by omega
        rw [if_neg hj, if_neg h, if_neg h']

theorem Memory.mem_put {m : Memory} {i : Nat} {v : Byte} {c : Host.Cell} (h : c ∈ m.put i v) :
    c = (i, v) ∨ c ∈ m := by
  induction m with
  | nil => simpa [Memory.put] using h
  | cons d m ih =>
    obtain ⟨k, w⟩ := d
    rw [Memory.put] at h
    split at h
    · simpa using h
    · split at h
      · rcases List.mem_cons.1 h with rfl | h
        · exact .inl rfl
        · exact .inr (List.mem_cons_of_mem _ h)
      · rcases List.mem_cons.1 h with rfl | h
        · exact .inr List.mem_cons_self
        · exact (ih h).imp id (List.mem_cons_of_mem _)

theorem Memory.wf_put {m : Memory} (h : m.wf) (i : Nat) (v : Byte) : (m.put i v).wf := by
  induction m with
  | nil => simp [Memory.put, Memory.wf]
  | cons d m ih =>
    obtain ⟨k, w⟩ := d
    obtain ⟨hk, hm⟩ := List.pairwise_cons.1 h
    rw [Memory.put]
    split
    · next hlt =>
      refine List.pairwise_cons.2 ⟨fun c hc => ?_, h⟩
      rcases List.mem_cons.1 hc with rfl | hc
      · exact hlt
      · exact lt_trans hlt (hk c hc)
    · split
      · next heq => exact List.pairwise_cons.2 ⟨fun c hc => heq ▸ hk c hc, hm⟩
      · refine List.pairwise_cons.2 ⟨fun c hc => ?_, ih hm⟩
        rcases Memory.mem_put hc with rfl | hc
        · show k < i
          omega
        · exact hk c hc

theorem Memory.wf_store {m : Memory} (h : m.wf) (i n : Nat) (v : Word) : (m.store i n v).wf := by
  induction n with
  | zero => exact h
  | succ n ih => exact Memory.wf_put ih _ _

theorem Memory.mem_store {m : Memory} {i n : Nat} {v : Word} {c : Host.Cell} (h : c ∈ m.store i n v) :
    (i ≤ c.1 ∧ c.1 < i + n) ∨ c ∈ m := by
  induction n with
  | zero => exact .inr h
  | succ n ih =>
    rcases Memory.mem_put h with rfl | h
    · left
      constructor <;> simp
    · rcases ih h with h | h
      · exact .inl ⟨h.1, by omega⟩
      · exact .inr h

/-- What KMEM reads as after a store: the stored bytes, and every other byte as before (20_memory.md R62). -/
theorem State.kmemByte_storeKmem (s : State) (i n j : Nat) (v : Word) :
    (s.storeKmem i n v).kmemByte j =
      if i ≤ j ∧ j < i + n then v.extractLsb' (8 * (j - i)) 8 else s.kmemByte j := by
  unfold State.kmemByte
  rw [State.storeKmem_kmem, State.storeKmem_powerOns, Memory.find_store]
  by_cases h : i ≤ j ∧ j < i + n <;> simp [h]

/-- A KMEM byte depends on the written bytes and the power-on draw alone. -/
theorem State.kmemByte_congr {s t : State} (hk : t.kmem = s.kmem) (hp : t.powerOns = s.powerOns) (i : Nat) :
    t.kmemByte i = s.kmemByte i := by
  unfold State.kmemByte
  rw [hk, hp]

theorem reset_memory_wf : Memory.wf State.reset.kmem := List.Pairwise.nil

end Sys2Proof.Machine
end

