-- ==== Sys2Proof/Laws/Exec.lean ====
section
/-! SUPPORT. What the shared operations of the commands can do, each said once: committing, taking a fault, and the two
ways any command ends (44_system.md R181). -/

namespace Sys2Proof.Machine

theorem commit_eq (s : State) : commit s = .next s.complete := rfl

theorem takeFault_eq (e : ErrCode) (s : State) :
    takeFault e s = .next (s.recordError e (s.curWord.setWidth 64)).complete := rfl

theorem State.setDst_eq (s : State) (d : Dst) (v : Word) :
    s.setDst d v = { s with a := if d = .a then v else s.a, b := if d = .b then v else s.b } := by
  cases d <;> rfl

/-- The states a command can commit: `s` with some of A, B and the hash unit replaced (30_encoding.md R93). -/
def Touched (s t : State) : Prop := t = { s with a := t.a, b := t.b, hash := t.hash }

theorem Touched.refl (s : State) : Touched s s := rfl

/-- How a command ends: it takes a fault other than EBUSY, or it commits a state that differs from `s` in A, B and the
hash unit alone (30_encoding.md R93, 44_system.md R181, 60_exceptions.md R196, R198). -/
theorem exec_cases (i : Instr) (s : State) :
    (∃ e, e ≠ .busy ∧ exec i s = takeFault e s) ∨ (∃ t, exec i s = commit t ∧ Touched s t) := by
  have fork : ∀ (c : Prop) [Decidable c] (e : ErrCode) (t : State), e ≠ .busy → Touched s t →
      (∃ e', e' ≠ .busy ∧ (if c then takeFault e s else commit t) = takeFault e' s) ∨
      (∃ t', (if c then takeFault e s else commit t) = commit t' ∧ Touched s t') := by
    intro c _ e t he ht
    by_cases hc : c
    · exact .inl ⟨e, he, if_pos hc⟩
    · exact .inr ⟨t, if_neg hc, ht⟩
  have reader : ∀ d width v, (∃ e, e ≠ .busy ∧ readInto d width v s = takeFault e s) ∨
      (∃ t, readInto d width v s = commit t ∧ Touched s t) := by
    intro d width v
    exact fork _ .bounds _ (by decide) (by cases d <;> rfl)
  cases i with
  | nop => exact .inr ⟨_, rfl, rfl⟩
  | mum => exact .inr ⟨_, rfl, rfl⟩
  | mix => exact .inr ⟨_, rfl, rfl⟩
  | rd8 d => exact reader _ _ _
  | rd4 d => exact reader _ _ _
  | rd3 d k =>
    by_cases hk : k = 0
    · exact .inl ⟨.illegal, by decide, if_pos hk⟩
    · have : exec (.rd3 d k) s = readInto d k.toNat (read3 s.kmemByte s.off.toNat k.toNat) s := if_neg hk
      rw [this]
      exact reader _ _ _
  | hinit => exact fork _ .bounds _ (by decide) rfl
  | hchunk => exact fork _ .seq _ (by decide) rfl
  | hfold => exact fork _ .seq _ (by decide) rfl
  | htail => exact fork _ .seq _ (by decide) rfl
  | hfinal => exact fork _ .seq _ (by decide) rfl
  | hash => exact fork _ .bounds _ (by decide) rfl
  | mulmod => exact fork _ .modZero _ (by decide) rfl
  | powmod => exact fork _ .modZero _ (by decide) rfl
  | prime => exact .inr ⟨_, rfl, rfl⟩

/-! The input registers. -/

theorem State.regValue_setReg (s : State) (r q : Reg) (v : Word) (h : r.isInput = true) :
    (s.setReg r v).regValue q = if q = r then v else s.regValue q := by
  cases r <;> simp [Reg.isInput] at h <;> cases q <;> simp [State.setReg, State.regValue] <;> rfl

theorem State.setReg_kmem (s : State) (r : Reg) (v : Word) : (s.setReg r v).kmem = s.kmem := by cases r <;> rfl

theorem State.setReg_hash (s : State) (r : Reg) (v : Word) : (s.setReg r v).hash = s.hash := by cases r <;> rfl

theorem State.setReg_params (s : State) (r : Reg) (v : Word) : (s.setReg r v).params = s.params := by cases r <;> rfl

theorem State.setReg_cur (s : State) (r : Reg) (v : Word) : (s.setReg r v).cur = s.cur := by cases r <;> rfl

theorem State.setReg_done (s : State) (r : Reg) (v : Word) : (s.setReg r v).done = s.done := by cases r <;> rfl

theorem State.setReg_err (s : State) (r : Reg) (v : Word) : (s.setReg r v).err = s.err := by cases r <;> rfl

theorem State.setReg_errcode (s : State) (r : Reg) (v : Word) : (s.setReg r v).errcode = s.errcode := by
  cases r <;> rfl

theorem State.setReg_errinfo (s : State) (r : Reg) (v : Word) : (s.setReg r v).errinfo = s.errinfo := by
  cases r <;> rfl

theorem State.setReg_powerOns (s : State) (r : Reg) (v : Word) : (s.setReg r v).powerOns = s.powerOns := by
  cases r <;> rfl

theorem State.setReg_agenda (s : State) (r : Reg) (v : Word) : (s.setReg r v).agenda = s.agenda := by
  cases r <;> rfl

end Sys2Proof.Machine
end

