-- ==== Sys2Proof/Laws/PerInstr.lean ====
section
/-! SUPPORT. Statements made per instruction. Family TableWord: the word of every well-formed instruction matches its
row of spec/opcode_table.json, mask and match as the table gives them. -/

namespace Sys2Proof.Laws.TableWord

/-- The "match" and "mask" of an instruction's row in spec/opcode_table.json. -/
def row : Instr → CmdWord × CmdWord
  | .nop => (0x00000000, 0xFFFFFFFF)
  | .mum => (0x00000001, 0xFFFFFFFF)
  | .mix => (0x00000002, 0xFFFFFFFF)
  | .rd8 _ => (0x00000010, 0xFFFFFEFF)
  | .rd4 _ => (0x00000011, 0xFFFFFEFF)
  | .rd3 _ _ => (0x00000012, 0xFFFFF8FF)
  | .hinit => (0x00000020, 0xFFFFFFFF)
  | .hchunk => (0x00000021, 0xFFFFFFFF)
  | .hfold => (0x00000022, 0xFFFFFFFF)
  | .htail => (0x00000023, 0xFFFFFFFF)
  | .hfinal => (0x00000024, 0xFFFFFFFF)
  | .hash => (0x0000002F, 0xFFFFFFFF)
  | .mulmod => (0x00000030, 0xFFFFFFFF)
  | .powmod => (0x00000031, 0xFFFFFFFF)
  | .prime => (0x00000032, 0xFFFFFFFF)

/-- The encoded word agrees with the row in every fixed bit. -/
def Statement (i : Instr) : Prop := i.wellFormed = true → encode i &&& (row i).2 = (row i).1

theorem nop : Statement .nop := fun _ => by decide
theorem mum : Statement .mum := fun _ => by decide
theorem mix : Statement .mix := fun _ => by decide
theorem rd8 (d : Dst) : Statement (.rd8 d) := fun _ => by cases d <;> decide
theorem rd4 (d : Dst) : Statement (.rd4 d) := fun _ => by cases d <;> decide
theorem rd3 (d : Dst) (k : BitVec 2) : Statement (.rd3 d k) := fun _ => by
  cases d <;> revert k <;> decide
theorem hinit : Statement .hinit := fun _ => by decide
theorem hchunk : Statement .hchunk := fun _ => by decide
theorem hfold : Statement .hfold := fun _ => by decide
theorem htail : Statement .htail := fun _ => by decide
theorem hfinal : Statement .hfinal := fun _ => by decide
theorem hash : Statement .hash := fun _ => by decide
theorem mulmod : Statement .mulmod := fun _ => by decide
theorem powmod : Statement .powmod := fun _ => by decide
theorem prime : Statement .prime := fun _ => by decide

end Sys2Proof.Laws.TableWord
end

