-- ==== Sys2Proof/Laws/Port.lean ====
section
/-! SUPPORT. The host port: what an access reaches, and everything a host access can do, said once. -/

namespace Sys2Proof.Machine

/-! Where an access lands. -/

theorem kmemSize_le (p : Params) : p.kmemSize ≤ 0x10000 := by
  have h : 2 ^ p.kmemExp.val ≤ 2 ^ 10 := Nat.pow_le_pow_right (by decide) (by omega)
  unfold Params.kmemSize
  omega

theorem eight_dvd_kmemSize (p : Params) : 8 ∣ p.kmemSize := ⟨8 * 2 ^ p.kmemExp.val, by unfold Params.kmemSize; omega⟩

theorem windowOffset_base (p : Params) {o : Nat} (h : o < 0x20000) : windowOffset p (p.blockBase + o) = some o := by
  unfold windowOffset
  rw [if_pos ⟨by omega, by omega⟩]
  congr 1
  omega

theorem windowOffset_lt {p : Params} {addr o : Nat} (h : windowOffset p addr = some o) : o < 0x20000 := by
  unfold windowOffset at h
  split at h
  · cases h
    omega
  · cases h

theorem windowOffset_addr {p : Params} {addr o : Nat} (h : windowOffset p addr = some o) : addr = p.blockBase + o := by
  unfold windowOffset at h
  split at h
  · cases h
    omega
  · cases h

theorem State.busWrite_eq (s : State) {o : Nat} (h : o < 0x20000) (bytes : Nat) (v : Word) :
    s.busWrite o bytes v = s.hostWrite o bytes v := by
  simp [State.busWrite, State.hostAccess, windowOffset_base _ h]

theorem State.busRead_eq (s : State) {o : Nat} (h : o < 0x20000) (bytes : Nat) :
    s.busRead o bytes = s.hostRead o bytes := by
  simp [State.busRead, State.hostAccess, windowOffset_base _ h]

theorem Reg.offset_lt (r : Reg) : r.offset < 0x1000 := by cases r <;> decide

theorem Reg.offset_mod (r : Reg) : r.offset % 8 = 0 := by cases r <;> rfl

theorem regAt_offset (r : Reg) : regAt r.offset = some r := by cases r <;> decide

theorem target_full (p : Params) (r : Reg) : target p r.offset 8 = .reg r .full := by
  simp [target, Reg.offset_lt, regTarget, Reg.offset_mod, regAt_offset]

theorem target_low (p : Params) (r : Reg) : target p r.offset 4 = .reg r .low := by
  simp [target, Reg.offset_lt, regTarget, Reg.offset_mod, regAt_offset]

theorem target_high (p : Params) (r : Reg) : target p (r.offset + 4) 4 = .reg r .high := by
  have h1 := r.offset_lt
  have h2 := r.offset_mod
  have h3 : r.offset + 4 < 0x1000 := by omega
  have h4 : ¬ (r.offset + 4) % 8 = 0 := by omega
  have h5 : (r.offset + 4) % 8 = 4 := by omega
  simp [target, h3, regTarget, h5, regAt_offset]

theorem regTarget_ne_kmem (o bytes i : Nat) : regTarget o bytes ≠ .kmem i := by
  intro h
  unfold regTarget at h
  split_ifs at h <;> first | cases h | (split at h <;> cases h)

/-- An access that reaches KMEM lies wholly inside it (20_memory.md R68). -/
theorem target_kmem {p : Params} {o bytes i : Nat} (h : target p o bytes = .kmem i) :
    i + bytes ≤ p.kmemSize ∧ o = 0x10000 + i := by
  unfold target at h
  by_cases h1 : o < 0x1000
  · rw [if_pos h1] at h
    exact absurd h (regTarget_ne_kmem _ _ _)
  · rw [if_neg h1] at h
    by_cases hc : 0x10000 ≤ o ∧ o < 0x10000 + p.kmemSize ∧ kmemWidth bytes = true ∧ o % bytes = 0
    · rw [if_pos hc] at h
      obtain ⟨h1, h2, h3, h4⟩ := hc
      injection h with h
      have h5 := eight_dvd_kmemSize p
      simp only [kmemWidth, Bool.or_eq_true, beq_iff_eq] at h3
      rcases h3 with ((rfl | rfl) | rfl) | rfl <;> omega
    · rw [if_neg hc] at h
      cases h

theorem target_kmem_of (p : Params) {i n : Nat} (hn : kmemWidth n = true) (hi : i < p.kmemSize) (ha : i % n = 0) :
    target p (0x10000 + i) n = .kmem i := by
  have h1 : ¬ 0x10000 + i < 0x1000 := by omega
  have h2 : (0x10000 + i) % n = 0 := by
    simp only [kmemWidth, Bool.or_eq_true, beq_iff_eq] at hn
    rcases hn with ((rfl | rfl) | rfl) | rfl <;> omega
  simp [target, h1, hi, hn, h2]

/-- An access that reaches a register covers it whole, or its low or its high half (20_memory.md R61, R67). -/
theorem target_reg {p : Params} {o bytes : Nat} {r : Reg} {lane : Lane} (h : target p o bytes = .reg r lane) :
    (lane = .full ∧ bytes = 8 ∧ o = r.offset) ∨ (lane = .low ∧ bytes = 4 ∧ o = r.offset) ∨
    (lane = .high ∧ bytes = 4 ∧ o = r.offset + 4) := by
  have named : ∀ {o' : Nat} {q : Reg}, regAt o' = some q → o' = q.offset := by
    intro o' q hq
    have h : q.offset = o' := by simpa using List.find?_some hq
    exact h.symm
  have found : ∀ {o' : Nat} {l : Lane},
      (match regAt o' with | some q => Target.reg q l | none => .nothing) = .reg r lane → o' = r.offset ∧ l = lane := by
    intro o' l hm
    split at hm
    · next q hq =>
      cases hm
      exact ⟨named hq, rfl⟩
    · cases hm
  unfold target at h
  split_ifs at h with h1 h2
  unfold regTarget at h
  split_ifs at h with h3 h4 h5
  · obtain ⟨ho, rfl⟩ := found h
    exact .inl ⟨rfl, h3.1, ho⟩
  · obtain ⟨ho, rfl⟩ := found h
    exact .inr (.inl ⟨rfl, h4.1, ho⟩)
  · obtain ⟨ho, rfl⟩ := found h
    exact .inr (.inr ⟨rfl, h5.1, by omega⟩)

/-! Everything a host access can do. -/

/-- Every outcome of an accepted register write, with the register and the half that each takes. -/
theorem State.writeReg_cases (s : State) (o : Nat) (r : Reg) (lane : Lane) (v : Word) :
    s.writeReg o r lane v = s ∨
    (r = .ctrl ∧ lane ≠ .high ∧ s.writeReg o r lane v = s.writeCtrl v) ∨
    (r = .status ∧ lane ≠ .high ∧ s.writeReg o r lane v = s.writeStatus v) ∨
    (s.busy = true ∧ s.writeReg o r lane v = s.dropBusy o) ∨
    (s.busy = false ∧ s.err = false ∧ r = .cmd ∧ lane ≠ .high ∧ s.writeReg o r lane v = s.issue (v.setWidth 32)) ∨
    (s.busy = false ∧ ∃ q x, q.isInput = true ∧ s.writeReg o r lane v = s.setReg q x) := by
  by_cases hr : r.isInput = true
  · have he : s.writeReg o r lane v = s.writeInput o r lane v := by
      cases r <;> first | rfl | exact absurd hr (by decide)
    rw [he, State.writeInput]
    by_cases hb : s.busy = true
    · exact .inr (.inr (.inr (.inl ⟨hb, if_pos hb⟩)))
    · exact .inr (.inr (.inr (.inr (.inr ⟨by simpa using hb, r, _, hr, if_neg hb⟩))))
  cases r with
  | ctrl =>
    by_cases hl : lane = .high
    · exact .inl (by simp [State.writeReg, hl])
    · exact .inr (.inl ⟨rfl, hl, by simp [State.writeReg, hl]⟩)
  | status =>
    by_cases hl : lane = .high
    · exact .inl (by simp [State.writeReg, hl])
    · exact .inr (.inr (.inl ⟨rfl, hl, by simp [State.writeReg, hl]⟩))
  | cmd =>
    by_cases hl : lane = .high
    · exact .inl (by simp [State.writeReg, hl])
    · by_cases hb : s.busy = true
      · exact .inr (.inr (.inr (.inl ⟨hb, by simp [State.writeReg, hl, State.writeCmd, hb]⟩)))
      · rw [Bool.not_eq_true] at hb
        by_cases he : s.err = true
        · exact .inl (by simp [State.writeReg, hl, State.writeCmd, hb, he])
        · rw [Bool.not_eq_true] at he
          exact .inr (.inr (.inr (.inr (.inl ⟨hb, he, rfl, hl, by
            simp [State.writeReg, hl, State.writeCmd, hb, he]⟩))))
  | off | a | b | n | s0 | s1 | s2 | s3 | seed | koff | len => exact absurd rfl hr
  | _ => exact .inl rfl

/-- A host access reads (leaving everything but the value returned and the count of draws), or writes CTRL, writes
STATUS, is dropped as a busy write, issues a command, stores to an input register, stores to KMEM, or does nothing. The
writes with a side effect (20_memory.md R73) come with the address and the width that reach them. -/
theorem State.hostAccess_cases (s : State) (acc : Access) :
    (∃ k v, s.hostAccess acc = { s with draws := k, hostData := v }) ∨
    (∃ addr bytes v, acc = .write addr bytes v ∧
      ((addr = s.params.blockBase + 0x010 ∧ (bytes = 4 ∨ bytes = 8) ∧ s.hostAccess acc = s.writeCtrl v) ∨
        (addr = s.params.blockBase + 0x018 ∧ (bytes = 4 ∨ bytes = 8) ∧ s.hostAccess acc = s.writeStatus v) ∨
        (s.busy = true ∧ ∃ o, o < 0x20000 ∧ addr = s.params.blockBase + o ∧ s.hostAccess acc = s.dropBusy o) ∨
        (s.busy = false ∧ s.err = false ∧ addr = s.params.blockBase + 0x020 ∧ (bytes = 4 ∨ bytes = 8) ∧
          s.hostAccess acc = s.issue (v.setWidth 32)) ∨
        (s.busy = false ∧ ∃ q x, q.isInput = true ∧ s.hostAccess acc = s.setReg q x) ∨
        (s.busy = false ∧ ∃ i n, i + n ≤ s.params.kmemSize ∧ s.hostAccess acc = s.storeKmem i n v))) := by
  cases acc with
  | read addr bytes =>
    left
    cases hw : windowOffset s.params addr with
    | none => exact ⟨s.draws, s.hostData, by simp [State.hostAccess, hw]⟩
    | some o =>
      have he : s.hostAccess (.read addr bytes) = s.hostRead o bytes := by simp [State.hostAccess, hw]
      rw [he]
      unfold State.hostRead
      split
      · split <;> exact ⟨_, _, rfl⟩
      · exact ⟨_, _, rfl⟩
      · exact ⟨_, _, rfl⟩
  | write addr bytes v =>
    cases hw : windowOffset s.params addr with
    | none => exact .inl ⟨s.draws, s.hostData, by simp [State.hostAccess, hw]⟩
    | some o =>
      have ho := windowOffset_lt hw
      have ha := windowOffset_addr hw
      have he : s.hostAccess (.write addr bytes v) = s.hostWrite o bytes v := by simp [State.hostAccess, hw]
      rw [he]
      cases ht : target s.params o bytes with
      | nothing => exact .inl ⟨s.draws, s.hostData, by simp [State.hostWrite, ht]⟩
      | kmem i =>
        have hwr : s.hostWrite o bytes v = s.writeKmem o i bytes v := by simp [State.hostWrite, ht]
        rw [hwr]
        refine .inr ⟨addr, bytes, v, rfl, ?_⟩
        by_cases hb : s.busy = true
        · exact .inr (.inr (.inl ⟨hb, o, ho, ha, by simp [State.writeKmem, hb]⟩))
        · rw [Bool.not_eq_true] at hb
          exact .inr (.inr (.inr (.inr (.inr ⟨hb, i, bytes, (target_kmem ht).1, by simp [State.writeKmem, hb]⟩))))
      | reg r lane =>
        have hwr : s.hostWrite o bytes v = s.writeReg o r lane v := by simp [State.hostWrite, ht]
        rw [hwr]
        have place : lane ≠ .high → addr = s.params.blockBase + r.offset ∧ (bytes = 4 ∨ bytes = 8) := by
          intro hl
          rcases target_reg ht with ⟨-, hb, rfl⟩ | ⟨-, hb, rfl⟩ | ⟨hh, -, -⟩
          · exact ⟨ha, .inr hb⟩
          · exact ⟨ha, .inl hb⟩
          · exact absurd hh hl
        rcases s.writeReg_cases o r lane v with h | ⟨rfl, hl, h⟩ | ⟨rfl, hl, h⟩ | ⟨hb, h⟩ | ⟨hb, he, rfl, hl, h⟩ | ⟨hb, h⟩
        · exact .inl ⟨s.draws, s.hostData, h⟩
        · exact .inr ⟨addr, bytes, v, rfl, .inl ⟨(place hl).1, (place hl).2, h⟩⟩
        · exact .inr ⟨addr, bytes, v, rfl, .inr (.inl ⟨(place hl).1, (place hl).2, h⟩)⟩
        · exact .inr ⟨addr, bytes, v, rfl, .inr (.inr (.inl ⟨hb, o, ho, ha, h⟩))⟩
        · exact .inr ⟨addr, bytes, v, rfl, .inr (.inr (.inr (.inl ⟨hb, he, (place hl).1, (place hl).2, h⟩)))⟩
        · exact .inr ⟨addr, bytes, v, rfl, .inr (.inr (.inr (.inr (.inl ⟨hb, h⟩))))⟩

end Sys2Proof.Machine
end

