-- ==== Sys2Proof/Laws/Readers.lean ====
section
/-! SUPPORT. The value of a little-endian read, as a number and byte by byte (00_scope.md R13, 20_memory.md R63). -/

namespace Sys2Proof.Machine

theorem toNat_append_eq {m n : Nat} (x : BitVec m) (y : BitVec n) :
    (x ++ y).toNat = x.toNat * 2 ^ n + y.toNat := by
  rw [BitVec.toNat_append, Nat.shiftLeft_eq, ← Nat.shiftLeft_eq, Nat.shiftLeft_add_eq_or_of_lt y.isLt]

/-- The value of an `n`-byte read, as the sum of 00_scope.md R13. -/
def leValue (bytes : Nat → Byte) (x : Nat) : Nat → Nat
  | 0 => 0
  | n + 1 => leValue bytes x n + (bytes (x + n)).toNat * 2 ^ (8 * n)

theorem leValue_lt (bytes : Nat → Byte) (x n : Nat) : leValue bytes x n < 2 ^ (8 * n) := by
  induction n with
  | zero => simp [leValue]
  | succ n ih =>
    have h := (bytes (x + n)).isLt
    have h2 : (bytes (x + n)).toNat * 2 ^ (8 * n) ≤ 255 * 2 ^ (8 * n) := Nat.mul_le_mul_right _ (by omega)
    have h3 : 2 ^ (8 * (n + 1)) = 256 * 2 ^ (8 * n) := by rw [show 8 * (n + 1) = 8 + 8 * n by ring, pow_add]; rfl
    rw [leValue, h3]
    omega

/-- `MemRead(x, n)` of at most 8 bytes is its little-endian value: nothing is lost. -/
theorem memRead_toNat (bytes : Nat → Byte) (x : Nat) {n : Nat} (h : n ≤ 8) :
    (memRead bytes x n).toNat = leValue bytes x n := by
  induction n with
  | zero => rfl
  | succ n ih =>
    have h1 := leValue_lt bytes x (n + 1)
    have h2 : 2 ^ (8 * (n + 1)) ≤ 2 ^ 64 := Nat.pow_le_pow_right (by decide) (by omega)
    have h3 : (bytes (x + n)).toNat * 2 ^ (8 * n) < 2 ^ 64 := by
      have : (bytes (x + n)).toNat * 2 ^ (8 * n) ≤ leValue bytes x (n + 1) := Nat.le_add_left _ _
      omega
    have h4 : (bytes (x + n)).toNat % 2 ^ 64 = (bytes (x + n)).toNat :=
      Nat.mod_eq_of_lt (lt_trans (bytes (x + n)).isLt (by decide))
    rw [memRead, BitVec.toNat_add, ih (by omega), BitVec.toNat_shiftLeft, BitVec.toNat_setWidth, h4, Nat.shiftLeft_eq,
      Nat.mod_eq_of_lt h3]
    exact Nat.mod_eq_of_lt (lt_of_lt_of_le h1 h2)

/-- `read8` byte by byte (41_readers.md R120). -/
theorem read8_eq (bytes : Nat → Byte) (x : Nat) :
    read8 bytes x = bytes (x + 7) ++ bytes (x + 6) ++ bytes (x + 5) ++ bytes (x + 4) ++ bytes (x + 3) ++ bytes (x + 2) ++
      bytes (x + 1) ++ bytes x := by
  apply BitVec.eq_of_toNat_eq
  rw [read8, memRead_toNat _ _ (le_refl 8)]
  simp only [toNat_append_eq, leValue, Nat.add_zero]
  ring

/-- `read4` byte by byte (41_readers.md R121). -/
theorem read4_eq (bytes : Nat → Byte) (x : Nat) :
    read4 bytes x = (0 : BitVec 32) ++ bytes (x + 3) ++ bytes (x + 2) ++ bytes (x + 1) ++ bytes x := by
  apply BitVec.eq_of_toNat_eq
  rw [read4, memRead_toNat _ _ (by decide)]
  simp only [toNat_append_eq, leValue, Nat.add_zero, BitVec.toNat_ofNat, BitVec.ofNat_eq_ofNat]
  ring

end Sys2Proof.Machine
end

