-- ==== Sys2Proof/Laws/Step.lean ====
section
/-! SUPPORT. Everything one step can do, said once (00_scope.md R14). -/

namespace Sys2Proof.Machine

/-- The ENGINE's turn does nothing while the block is idle, and otherwise takes a fault or commits. -/
theorem engineTurn_cases (s : State) :
    (s.cur = none ∧ engineTurn s = .next s) ∨
    (∃ w, s.cur = some w ∧ ((∃ e, e ≠ .busy ∧ engineTurn s = takeFault e s) ∨ (∃ i, decode w = .ok i ∧ engineTurn s = exec i s))) := by
  cases hc : s.cur with
  | none => exact .inl ⟨rfl, by simp [engineTurn, hc]⟩
  | some w =>
    refine .inr ⟨w, rfl, ?_⟩
    cases hd : decode w with
    | ok i => exact .inr ⟨i, rfl, by simp [engineTurn, hc, hd]⟩
    | error e => exact .inl ⟨.illegal, by decide, by simp [engineTurn, hc, hd]⟩

theorem step_engine {s : State} (h : s.engineNext) : step s = engineTurn s.taken := by
  rcases h with h | ⟨turns, h⟩
  · have : s.taken = s := by
      obtain ⟨⟩ := s
      subst h
      rfl
    rw [this]
    simp [step, h]
  · simp [step, h, State.taken]

theorem step_host {s : State} {acc : Access} {turns : List Turn} (h : s.agenda = .host acc :: turns) :
    step s = .next (s.taken.hostAccess acc) := by
  simp [step, h, State.taken]

theorem step_powerOn {s : State} {turns : List Turn} (h : s.agenda = .powerOn :: turns) :
    step s = .next s.taken.powerOn := by
  simp [step, h, State.taken]

/-- A step is the ENGINE's turn, a host access, or a power-on reset, on the state whose first turn is taken. -/
theorem step_cases (s : State) :
    (s.engineNext ∧ step s = engineTurn s.taken) ∨
    (∃ acc turns, s.agenda = .host acc :: turns ∧ step s = .next (s.taken.hostAccess acc)) ∨
    (∃ turns, s.agenda = .powerOn :: turns ∧ step s = .next s.taken.powerOn) := by
  cases h : s.agenda with
  | nil => exact .inl ⟨.inl h, step_engine (.inl h)⟩
  | cons turn turns =>
    cases turn with
    | engine => exact .inl ⟨.inr ⟨turns, h⟩, step_engine (.inr ⟨turns, h⟩)⟩
    | host acc => exact .inr (.inl ⟨acc, turns, rfl, step_host h⟩)
    | powerOn => exact .inr (.inr ⟨turns, rfl, step_powerOn h⟩)

end Sys2Proof.Machine
end

