-- ==== Sys2Proof/Tests/Slice0.lean ====
section
/-! SUPPORT. The model's own tests: the checks of WellFormed, the decoding of words written out bit by bit from
30_encoding.md R91 and R92, one-step tests whose expected values are those of 95_test_vectors.md and of the examples of
the rules, and for every statement with hypotheses a state and operands that meet them all. -/

namespace Sys2Proof.Tests

open Sys2Proof Sys2Proof.Machine

-- One theorem at a time: many kernel evaluations in flight at once would each hold a thread.
set_option Elab.async false

/-! WellFormed: the one ill-formed form (30_encoding.md R97 point 5), refused. -/

theorem test_wellFormed_refuses_k_zero_a : (Instr.rd3 .a 0).wellFormed = false := by decide

theorem test_wellFormed_refuses_k_zero_b : (Instr.rd3 .b 0).wellFormed = false := by decide

theorem test_wellFormed_accepts_k_three : (Instr.rd3 .b 3).wellFormed = true := by decide

/-! Decode: RSV (21 bits), K, DST, OPC, from the highest bit down (30_encoding.md R91, R92). -/

theorem test_decode_system_and_mulmix :
    decode 0b00000000000000000000000000000000 = .ok .nop ∧ decode 0b00000000000000000000000000000001 = .ok .mum ∧
    decode 0b00000000000000000000000000000010 = .ok .mix := ⟨rfl, rfl, rfl⟩

theorem test_decode_rd8 :
    decode 0b00000000000000000000000000010000 = .ok (.rd8 .a) ∧
    decode 0b00000000000000000000000100010000 = .ok (.rd8 .b) := ⟨rfl, rfl⟩

theorem test_decode_rd4 :
    decode 0b00000000000000000000000000010001 = .ok (.rd4 .a) ∧
    decode 0b00000000000000000000000100010001 = .ok (.rd4 .b) := ⟨rfl, rfl⟩

theorem test_decode_rd3 :
    decode 0b00000000000000000000001000010010 = .ok (.rd3 .a 1) ∧
    decode 0b00000000000000000000010000010010 = .ok (.rd3 .a 2) ∧
    decode 0b00000000000000000000011000010010 = .ok (.rd3 .a 3) ∧
    decode 0b00000000000000000000001100010010 = .ok (.rd3 .b 1) ∧
    decode 0b00000000000000000000010100010010 = .ok (.rd3 .b 2) ∧
    decode 0b00000000000000000000011100010010 = .ok (.rd3 .b 3) := ⟨rfl, rfl, rfl, rfl, rfl, rfl⟩

theorem test_decode_hash_family :
    decode 0b00000000000000000000000000100000 = .ok .hinit ∧ decode 0b00000000000000000000000000100001 = .ok .hchunk ∧
    decode 0b00000000000000000000000000100010 = .ok .hfold ∧ decode 0b00000000000000000000000000100011 = .ok .htail ∧
    decode 0b00000000000000000000000000100100 = .ok .hfinal ∧ decode 0b00000000000000000000000000101111 = .ok .hash :=
  ⟨rfl, rfl, rfl, rfl, rfl, rfl⟩

theorem test_decode_prime_family :
    decode 0b00000000000000000000000000110000 = .ok .mulmod ∧ decode 0b00000000000000000000000000110001 = .ok .powmod ∧
    decode 0b00000000000000000000000000110010 = .ok .prime := ⟨rfl, rfl, rfl⟩

/-- One word for each of the five points of 30_encoding.md R97. -/
theorem test_decode_rejects_by_name :
    decode 0x00000003 = .error .opcode ∧ decode 0x00000800 = .error .reserved ∧ decode 0x80000001 = .error .reserved ∧
    decode 0x00000121 = .error .dstUnused ∧ decode 0x00000201 = .error .kUnused ∧
    decode 0x00000410 = .error .kUnused ∧ decode 0x00000012 = .error .kZero := ⟨rfl, rfl, rfl, rfl, rfl, rfl, rfl⟩

theorem test_encode_rd3_b_2 : encode (.rd3 .b 2) = 0x00000512 := by decide

theorem test_decodeTableWord_reads_the_command_word : decodeTableWord 32 0x00000512 = some (.rd3 .b 2) := by decide

theorem test_withFetchWord_runs_its_word : step (State.reset.withFetchWord 32 0x0000002F) =
    exec .hash (State.reset.issue 0x0000002F) := rfl

/-! One step of each command. -/

/-- Whether a step from `s` with the command word `w` in flight ends in a next state that meets `p`. -/
def after (w : CmdWord) (s : State) (p : State → Bool) : Bool :=
  match step { s with cur := some w } with
  | .next t => p t
  | .fault _ => false
  | .refused _ => false

/-- The state after reset with `bytes` in KMEM from offset `i` on. -/
def keyAt (i : Nat) (bytes : List Byte) : State :=
  { State.reset with kmem := bytes.zipIdx.map (fun c => (i + c.2, c.1)) }

/-- The pattern key of 95_test_vectors.md, `KMEM[i] = i`, and the registers of a hash of it in progress. -/
def pattern (n : Nat) (u : HashUnit) : State :=
  { keyAt 0 ((List.range n).map (BitVec.ofNat 8)) with hash := u }

/-- A hash unit with the given accumulators, position and phase, on a key of `len` bytes at offset 0. -/
def unit (acc0 acc1 acc2 : Word) (ptr rem len : Word) (phase : Phase) : HashUnit :=
  { HashUnit.reset with acc0 := acc0, acc1 := acc1, acc2 := acc2, ptr := ptr, rem := rem, hlen := len, phase := phase }

theorem test_nop : after 0x00 State.reset (fun t => t.statusWord == 0x2 && t.regValue .a == 0) = true := by
  decide +kernel

theorem test_mum : after 0x01 { State.reset with a := 0x0123456789abcdef, b := 0xfedcba9876543210 }
    (fun t => t.a == 0x2236d88fe5618cf0 && t.b == 0x0121fa00ad77d742 && t.statusWord == 0x2) = true := by
  decide +kernel

theorem test_mum_all_ones : after 0x01 { State.reset with a := BitVec.allOnes 64, b := BitVec.allOnes 64 }
    (fun t => t.a == 1 && t.b == 0xFFFFFFFFFFFFFFFE) = true := by decide +kernel

theorem test_mix : after 0x02 { State.reset with a := 0x2d358dccaa6c78a5, b := 0x8bb84b93962eacc9 }
    (fun t => t.a == 0xca813bf4c7abf0a9 && t.b == 0x8bb84b93962eacc9) = true := by decide +kernel

theorem test_rd8 : after 0x10 (keyAt 0 [1, 2, 3, 4, 5, 6, 7, 8])
    (fun t => t.a == 0x0807060504030201 && t.b == 0 && t.statusWord == 0x2) = true := by decide +kernel

theorem test_rd8_offset_does_not_wrap : after 0x10 { State.reset with off := BitVec.allOnes 64 }
    (fun t => t.a == 0 && t.statusWord == 0x206 && t.errinfo == 0x10) = true := by decide +kernel

theorem test_rd4 : after 0x111 { keyAt 0 [1, 2, 3, 4, 5, 6, 7, 8] with off := 2 }
    (fun t => t.b == 0x06050403 && t.a == 0) = true := by decide +kernel

theorem test_rd4_past_the_end : after 0x11 { State.reset with off := 0x3ffd }
    (fun t => t.statusWord == 0x206 && t.errinfo == 0x11) = true := by decide +kernel

theorem test_rd3_last_byte : after 0x212 { keyAt 0x3fff [0x61] with off := 0x3fff }
    (fun t => t.a == 0x616161 && t.statusWord == 0x2) = true := by decide +kernel

theorem test_rd3_order : after 0x712 (keyAt 0 [1, 2, 3]) (fun t => t.b == 0x010203 && t.a == 0) = true := by
  decide +kernel

theorem test_hinit : after 0x20 { State.reset with len := 100 }
    (fun t => t.hash == unit 0xca813bf4c7abf0a9 0xca813bf4c7abf0a9 0xca813bf4c7abf0a9 0 100 100 .chunk &&
      t.statusWord == 0x12) = true := by decide +kernel

theorem test_hinit_length_does_not_wrap : after 0x20 { State.reset with koff := 1, len := BitVec.allOnes 64 }
    (fun t => t.statusWord == 0x206 && t.hash == HashUnit.reset) = true := by decide +kernel

theorem test_hchunk :
    after 0x21 (pattern 48 (unit 0xca813bf4c7abf0a9 0xca813bf4c7abf0a9 0xca813bf4c7abf0a9 0 100 100 .chunk))
      (fun t => t.hash == unit 0xea1026bbc46249e7 0xe4f27cd3536ac543 0x339df2aec5dbfb46 48 52 100 .chunk) = true := by
  decide +kernel

theorem test_hchunk_too_short : after 0x21 (pattern 0 (unit 0 0 0 0 47 47 .chunk))
    (fun t => t.statusWord == 0x516 && t.errinfo == 0x21 && t.hash.rem == 47) = true := by decide +kernel

theorem test_hfold :
    after 0x22 (pattern 0 (unit 0xea1026bbc46249e7 0xe4f27cd3536ac543 0x339df2aec5dbfb46 48 0 48 .chunk))
      (fun t => t.hash == unit 0x3d7fa8c652d377e2 0xe4f27cd3536ac543 0x339df2aec5dbfb46 48 0 48 .tail &&
        t.statusWord == 0x22) = true := by decide +kernel

theorem test_hfold_too_early : after 0x22 (pattern 0 (unit 0 0 0 0 48 48 .chunk))
    (fun t => t.statusWord == 0x516 && t.errinfo == 0x22) = true := by decide +kernel

theorem test_htail :
    after 0x23 (pattern 40 (unit 0xca813bf4c7abf0a9 0xca813bf4c7abf0a9 0xca813bf4c7abf0a9 0 40 40 .tail))
      (fun t => t.hash == unit 0xea1026bbc46249e7 0xca813bf4c7abf0a9 0xca813bf4c7abf0a9 16 24 40 .tail) = true := by
  decide +kernel

theorem test_htail_too_short : after 0x23 (pattern 0 (unit 0 0 0 0 16 16 .tail))
    (fun t => t.statusWord == 0x526 && t.errinfo == 0x23) = true := by decide +kernel

theorem test_hfinal :
    after 0x24 (pattern 40 (unit 0x70f42a8b7bb633e1 0xca813bf4c7abf0a9 0xca813bf4c7abf0a9 32 8 40 .tail))
      (fun t => t.hash.h == 0x95aeea5cd8b05818 && t.hash.phase == .none && t.statusWord == 0x2) = true := by
  decide +kernel

theorem test_hfinal_too_early : after 0x24 (pattern 0 (unit 0 0 0 0 17 17 .tail))
    (fun t => t.statusWord == 0x526 && t.errinfo == 0x24 && t.hash.h == 0) = true := by decide +kernel

/-- The golden vector `hash("a")` of the source (95_test_vectors.md section 1). -/
theorem test_hash_golden : after 0x2F { keyAt 0 [0x61] with len := 1 }
    (fun t => t.hash.h == 0xaced12527fe5bff8 && t.hash.rem == 1 && t.statusWord == 0x2) = true := by decide +kernel

/-- A key of 100 bytes away from offset 0: two chunks, no tail (95_test_vectors.md section 2.3). -/
theorem test_hash_chunks : after 0x2F
    { keyAt 5 ((List.range 100).map (BitVec.ofNat 8)) with koff := 5, len := 100, seed := 0x0123456789abcdef }
    (fun t => t.hash.h == 0x417f8a429c0e6b57 && t.hash.ptr == 101 && t.hash.rem == 4 && t.hash.hbase == 5) = true := by
  decide +kernel

theorem test_mulmod : after 0x30 { State.reset with a := 0x8000000000000000, b := 2, n := 0x8000000000000001 }
    (fun t => t.a == 0x7fffffffffffffff && t.b == 2) = true := by decide +kernel

theorem test_mulmod_zero_modulus : after 0x30 { State.reset with a := 5, b := 7 }
    (fun t => t.a == 5 && t.statusWord == 0x406 && t.errinfo == 0x30) = true := by decide +kernel

theorem test_powmod : after 0x31
    { State.reset with a := 3, b := 0xffffffffffffffff, n := 0xffffffffffffffff }
    (fun t => t.a == 0x83b58e3f0a83554f && t.b == 0xffffffffffffffff) = true := by decide +kernel

theorem test_powmod_modulus_one : after 0x31 { State.reset with a := 7, b := 0, n := 1 }
    (fun t => t.a == 0 && t.statusWord == 0x2) = true := by decide +kernel

/-- Passes the bases 2 to 31 and fails base 37 (95_test_vectors.md section 2.6). -/
theorem test_prime_needs_the_last_base : after 0x32 { State.reset with n := 3825123056546413051 }
    (fun t => t.a == 0) = true := by decide +kernel

theorem test_prime_accepts_s0 : after 0x32 { State.reset with n := 0x2d358dccaa6c78a5 }
    (fun t => t.a == 1 && t.n == 0x2d358dccaa6c78a5) = true := by decide +kernel

/-! The host port (95_test_vectors.md section 2.7). -/

theorem test_port_id_and_cfg :
    (State.reset.busRead 0x000 8).hostData = 0x57594d5800070001 ∧ (State.reset.busRead 0x008 8).hostData = 0x4000 ∧
    (State.reset.busRead 0x004 4).hostData = 0x57594d58 := by decide +kernel

theorem test_port_halves :
    ((State.reset.busWrite 0x044 4 0xDEADBEEF).busWrite 0x040 4 0x12345678).a = 0xdeadbeef12345678 := by
  decide +kernel

theorem test_port_misaligned_is_ignored :
    State.reset.busWrite 0x041 4 0xFF = State.reset ∧ State.reset.busWrite 0x040 1 0xFF = State.reset := by
  decide +kernel

theorem test_port_upper_half_of_cmd_is_ignored :
    State.reset.busWrite 0x024 4 1 = State.reset ∧
    (State.reset.busWrite 0x020 8 0xFFFFFFFF00000002).cur = some 0x00000002 := by decide +kernel

theorem test_port_busy_write_is_dropped :
    (((State.reset.busWrite 0x020 8 0x2F).busWrite 0x040 8 5).busWrite 0x020 8 1).statusWord = 0x305 ∧
    (((State.reset.busWrite 0x020 8 0x2F).busWrite 0x040 8 5).busWrite 0x020 8 1).errinfo = 0x8000000000000040 := by
  decide +kernel

theorem test_port_busy_byte_write_records_its_offset :
    ((State.reset.busWrite 0x020 8 0x2F).busWrite 0x10005 1 0xAB).errinfo = 0x8000000000010005 := by decide +kernel

theorem test_port_reads_kmem_little_endian :
    ((State.reset.busWrite 0x10000 8 0x0807060504030201).busRead 0x10002 2).hostData = 0x0403 := by decide +kernel

theorem test_port_soft_reset_keeps_kmem :
    ((((State.reset.busWrite 0x10000 1 0x61).busWrite 0x090 8 1).busWrite 0x020 8 0x2F).busWrite 0x010 8 7) =
      State.reset.busWrite 0x10000 1 0x61 := by decide +kernel

theorem test_port_interrupt :
    ({ State.reset with ieDone := true, done := true } : State).irq = true ∧
    ({ State.reset with ieErr := true, done := true } : State).irq = false ∧
    (({ State.reset with ieDone := true, done := true } : State).busWrite 0x018 8 2).irq = false := by decide +kernel

/-! Witnesses: for each statement with hypotheses, a state and operands that meet them. -/

/-- A command in flight. -/
def flying (w : CmdWord) : State := { State.reset with cur := some w }

theorem witness_EncodeThenDecodeReturnsTheCommand :
    (Instr.rd3 .b 3).wellFormed = true ∧ (Instr.rd3 .a 1).wellFormed = true := by decide

theorem witness_DecodedWordIsTheCommandsOwnWord : decode 0x712 = .ok (.rd3 .b 3) := rfl

/-- A word for each of the five points, and one legal word. -/
theorem witness_WordIllegalExactlyByTheFiveCauses :
    (∃ e, decode 0xFF = .error e) ∧ (∃ e, decode 0x80000000 = .error e) ∧ (∃ e, decode 0x100 = .error e) ∧
    (∃ e, decode 0x611 = .error e) ∧ (∃ e, decode 0x112 = .error e) ∧ ¬ (∃ e, decode 0x32 = .error e) :=
  ⟨⟨_, rfl⟩, ⟨_, rfl⟩, ⟨_, rfl⟩, ⟨_, rfl⟩, ⟨_, rfl⟩, fun ⟨_, h⟩ => nomatch h⟩

theorem witness_EngineTurnRunsTheDecodedCommand :
    ((flying 0x2F).engineNext ∧ (flying 0x2F).cur = some 0x2F ∧ decode 0x2F = .ok .hash) ∧
    ({ flying 0x712 with agenda := [.engine, .powerOn] } : State).engineNext :=
  ⟨⟨.inl rfl, rfl, rfl⟩, .inr ⟨_, rfl⟩⟩

theorem witness_IllegalWordFaultsWithEillegal :
    (flying 0x121).engineNext ∧ (flying 0x121).cur = some 0x121 ∧ decode 0x121 = .error .dstUnused :=
  ⟨.inl rfl, rfl, rfl⟩

/-- Busy; idle with an error; idle without one. -/
theorem witness_CmdWriteIssuesOrIsDropped :
    (flying 0).busy = true ∧ (State.reset.busy = false ∧ ({ State.reset with err := true } : State).err = true) ∧
    (State.reset.busy = false ∧ State.reset.err = false) := by decide

/-- A command that faults, and one that does not. -/
theorem witness_CommandFaultWritesOnlyTheRecord :
    (∃ t, exec .mulmod State.reset = .next t ∧ t.err = true) ∧ (∃ t, exec .nop State.reset = .next t ∧ t.err = false) :=
  ⟨⟨_, rfl, rfl⟩, ⟨_, rfl, rfl⟩⟩

/-- The last legal offset of each reader. -/
theorem witness_readers_in_bounds :
    (16376 : Word).toNat + 8 ≤ State.reset.params.kmemSize ∧ (16380 : Word).toNat + 4 ≤ State.reset.params.kmemSize ∧
    ((1 : BitVec 2) ≠ 0 ∧ (16383 : Word).toNat + (1 : BitVec 2).toNat ≤ State.reset.params.kmemSize) ∧
    ((2 : BitVec 2) ≠ 0 ∧ (16382 : Word).toNat + (2 : BitVec 2).toNat ≤ State.reset.params.kmemSize) ∧
    ((3 : BitVec 2) ≠ 0 ∧ (16381 : Word).toNat + (3 : BitVec 2).toNat ≤ State.reset.params.kmemSize) := by
  decide +kernel

theorem witness_Rd8ReadsEightBytes :
    ({ State.reset with off := 16376 } : State).off.toNat + 8 ≤
      ({ State.reset with off := 16376 } : State).params.kmemSize := by decide +kernel

theorem witness_Rd4ReadsFourBytes :
    ({ State.reset with off := 16380 } : State).off.toNat + 4 ≤
      ({ State.reset with off := 16380 } : State).params.kmemSize := by decide +kernel

theorem witness_Rd3PacksItsBytes :
    (1 : BitVec 2) ≠ 0 ∧ ({ State.reset with off := 16383 } : State).off.toNat + (1 : BitVec 2).toNat ≤
      ({ State.reset with off := 16383 } : State).params.kmemSize := by decide +kernel

/-- The first faulting value of each clause. -/
theorem witness_KeyOutsideKmemFaultsWithEbounds :
    (16377 : Word).toNat + 8 > State.reset.params.kmemSize ∧ (16381 : Word).toNat + 4 > State.reset.params.kmemSize ∧
    ((1 : BitVec 2) ≠ 0 ∧ (16384 : Word).toNat + (1 : BitVec 2).toNat > State.reset.params.kmemSize) ∧
    ((3 : BitVec 2) ≠ 0 ∧ (16382 : Word).toNat + (3 : BitVec 2).toNat > State.reset.params.kmemSize) ∧
    (16384 : Word).toNat + (1 : Word).toNat > State.reset.params.kmemSize ∧
    (1 : Word).toNat + (BitVec.allOnes 64).toNat > State.reset.params.kmemSize := by decide +kernel

/-- The key inside KMEM: the empty key at its end, and the longest key (HINIT, HASH, and the step sequence). -/
theorem witness_key_inside :
    (16384 : Word).toNat + (0 : Word).toNat ≤ State.reset.params.kmemSize ∧
    (0 : Word).toNat + (16384 : Word).toNat ≤ State.reset.params.kmemSize := by decide +kernel

theorem witness_HinitSeedsTheAccumulators :
    ({ State.reset with koff := 16384 } : State).koff.toNat + ({ State.reset with koff := 16384 } : State).len.toNat ≤
      ({ State.reset with koff := 16384 } : State).params.kmemSize := by decide +kernel

theorem witness_HashWritesTheReferenceDigest :
    ({ State.reset with len := 16384 } : State).koff.toNat + ({ State.reset with len := 16384 } : State).len.toNat ≤
      ({ State.reset with len := 16384 } : State).params.kmemSize := by decide +kernel

theorem witness_StepSequenceEqualsHash :
    ({ State.reset with len := 97 } : State).koff.toNat + ({ State.reset with len := 97 } : State).len.toNat ≤
      ({ State.reset with len := 97 } : State).params.kmemSize ∧
    stepSequence 97 = [.hinit, .hchunk, .hchunk, .hfold, .hfinal] ∧
    stepSequence 47 = [.hinit, .hfold, .htail, .htail, .hfinal] := by decide +kernel

/-- The step commands at the last REM that each accepts. -/
theorem witness_HchunkMixesFortyEightBytes :
    (pattern 0 (unit 0 0 0 0 48 48 .chunk)).hash.phase = .chunk ∧
    48 ≤ (pattern 0 (unit 0 0 0 0 48 48 .chunk)).hash.rem.toNat := by decide +kernel

theorem witness_HfoldFoldsTheAccumulators :
    (pattern 0 (unit 0 0 0 0 47 47 .chunk)).hash.phase = .chunk ∧
    (pattern 0 (unit 0 0 0 0 47 47 .chunk)).hash.rem.toNat < 48 := by decide +kernel

theorem witness_HtailMixesSixteenBytes :
    (pattern 0 (unit 0 0 0 0 17 17 .tail)).hash.phase = .tail ∧
    16 < (pattern 0 (unit 0 0 0 0 17 17 .tail)).hash.rem.toNat := by decide +kernel

theorem witness_HfinalWritesTheDigest :
    (pattern 0 (unit 0 0 0 0 16 16 .tail)).hash.phase = .tail ∧
    (pattern 0 (unit 0 0 0 0 16 16 .tail)).hash.rem.toNat ≤ 16 := by decide +kernel

/-- A length at each edge of each regime; no length falls under two clauses. -/
theorem witness_FinalOperandsByKeyLength :
    (∀ len ∈ [17, 18, 16384], 16 < len) ∧ (∀ len ∈ [4, 7, 8, 15, 16], 4 ≤ len ∧ len ≤ 16) ∧
    (∀ len ∈ [1, 2, 3], 1 ≤ len ∧ len ≤ 3) := by decide

theorem witness_LongKeyOperandsAreItsLastSixteenBytes :
    (pattern 0 (unit 0 0 0 16 1 17 .tail)).sequencerOk ∧ (pattern 0 (unit 0 0 0 16 1 17 .tail)).hash.phase = .tail ∧
    16 < (pattern 0 (unit 0 0 0 16 1 17 .tail)).hash.hlen.toNat := by
  unfold State.sequencerOk
  decide +kernel

/-- For each step command a state in the wrong phase, and one whose REM does not allow it. -/
theorem witness_HashStepOutOfSequenceFaultsWithEseq :
    State.reset.hash.phase ≠ .chunk ∧ State.reset.hash.phase ≠ .tail ∧
    (unit 0 0 0 0 47 47 .chunk).rem.toNat < 48 ∧ 48 ≤ (unit 0 0 0 0 48 48 .chunk).rem.toNat ∧
    (unit 0 0 0 0 16 16 .tail).rem.toNat ≤ 16 ∧ 16 < (unit 0 0 0 0 17 17 .tail).rem.toNat := by decide +kernel

theorem witness_MulmodWritesTheExactResidue : ({ State.reset with n := 1 } : State).n ≠ 0 := by decide

theorem witness_PowmodWritesTheExactPower : ({ State.reset with n := BitVec.allOnes 64 } : State).n ≠ 0 := by decide

theorem witness_ZeroModulusFaultsWithEmodzero : State.reset.n = 0 := by decide

theorem witness_PrimeAcceptsEveryPrime :
    Nat.Prime ({ State.reset with n := 2 } : State).n.toNat ∧ Nat.Prime ({ State.reset with n := 41 } : State).n.toNat :=
  ⟨Nat.prime_two, show Nat.Prime 41 by norm_num⟩

/-- A value of N for each clause: below 2, 2, the least even number above it, the least odd number, and 41 squared, a
composite with no prime factor up to 37. -/
theorem witness_PrimeWritesTheVerdict :
    ({ State.reset with n := 1 } : State).n.toNat < 2 ∧ ({ State.reset with n := 2 } : State).n.toNat = 2 ∧
    (2 < ({ State.reset with n := 4 } : State).n.toNat ∧ ({ State.reset with n := 4 } : State).n.toNat % 2 = 0) ∧
    (let n := ({ State.reset with n := 3 } : State).n.toNat;
      3 ≤ n ∧ n - 1 = 1 * 2 ^ 1 ∧ 1 % 2 = 1 ∧ n % 2 = 1) ∧
    (let n := ({ State.reset with n := 1681 } : State).n.toNat;
      3 ≤ n ∧ n - 1 = 105 * 2 ^ 4 ∧ 105 % 2 = 1 ∧ n % 2 = 1 ∧ sprp64 n = false) := by decide +kernel

/-- A number below 2, and the largest prime square below 41 squared. -/
theorem witness_PrimeRejectsSmallFactors :
    ({ State.reset with n := 1 } : State).n.toNat < 2 ∧
    (∃ p, Nat.Prime p ∧ p ≤ 37 ∧ p ∣ ({ State.reset with n := 1369 } : State).n.toNat ∧
      p ≠ ({ State.reset with n := 1369 } : State).n.toNat) :=
  ⟨by decide, 37, by norm_num, by decide, ⟨37, rfl⟩, by decide⟩

theorem witness_CommandsTouchOnlyTheirWriteSet :
    (∃ t, exec .mum State.reset = .next t) ∧ Reg.off ∉ Instr.mum.writes ∧ Instr.mum.writesPhase = false :=
  ⟨⟨_, rfl⟩, by decide, rfl⟩

/-- A host write that changes a byte, and a power-on that does. -/
theorem witness_KeyMemoryChangesOnlyByIdleHostWrites :
    (∃ t, step { keyAt 0 [0] with agenda := [.host (.write 0x10000 1 1)] } = .next t ∧
      t.kmemByte 0 ≠ (keyAt 0 [0]).kmemByte 0) ∧
    (∃ t, step { keyAt 0 [Config.powerOnByte 1 0 + 1] with agenda := [.powerOn] } = .next t ∧
      t.kmemByte 0 ≠ (keyAt 0 [Config.powerOnByte 1 0 + 1]).kmemByte 0) := by
  refine ⟨⟨_, rfl, by decide +kernel⟩, ⟨_, rfl, ?_⟩⟩
  change Config.powerOnByte 1 0 ≠ Config.powerOnByte 1 0 + 1
  generalize Config.powerOnByte 1 0 = v
  revert v
  decide

theorem witness_IdAndConfigurationNeverChange : step State.reset = .next State.reset := rfl

/-- A register outside the write set of the command in flight, STATUS under a command that keeps HPHASE, and the last
aligned KMEM offset of each width. -/
theorem witness_StableReadsReturnTheValue :
    (decode 0x2F = .ok .hash ∧ Reg.a ∉ Instr.hash.writes) ∧
    (decode 0x01 = .ok .mum ∧ Reg.status ∉ Instr.mum.writes ∧ Instr.mum.writesPhase = false) ∧
    16383 < State.reset.params.kmemSize ∧ (16382 < State.reset.params.kmemSize ∧ 16382 % 2 = 0) ∧
    (16380 < State.reset.params.kmemSize ∧ 16380 % 4 = 0) ∧ (16376 < State.reset.params.kmemSize ∧ 16376 % 8 = 0) :=
  ⟨⟨rfl, by decide⟩, ⟨rfl, by decide, rfl⟩, by decide +kernel, by decide +kernel, by decide +kernel, by decide +kernel⟩

theorem witness_WriteSetReadsAreUnspecifiedWhileBusy :
    ((flying 0x2F).cur = some 0x2F ∧ decode 0x2F = .ok .hash ∧ Reg.h ∈ Instr.hash.writes ∧
      Instr.hash.writesPhase = true) ∧
    ((flying 0x01).cur = some 0x01 ∧ decode 0x01 = .ok .mum ∧ Reg.b ∈ Instr.mum.writes ∧
      Instr.mum.writesPhase = false) := ⟨⟨rfl, rfl, by decide, rfl⟩, ⟨rfl, rfl, by decide, rfl⟩⟩

/-- A command in flight, the input registers at the edges of the map, and the last KMEM access of each width. -/
theorem witness_BusyWritesAreDroppedWithEbusy :
    (flying 0x2F).busy = true ∧ Reg.off.isInput = true ∧ Reg.len.isInput = true ∧
    (16383 < (flying 0x2F).params.kmemSize ∧ 16383 % 1 = 0) ∧ (16376 < (flying 0x2F).params.kmemSize ∧ 16376 % 8 = 0) := by
  decide +kernel

theorem witness_ReadOnlyAndReservedWritesAreIgnored :
    (0x000 ∈ [0x000, 0x008, 0x028, 0x038, 0x058, 0x098, 0x0A0, 0x0A8, 0x0B0, 0x0B8, 0x0C0, 0x0C8, 0x0D0]) ∧
    (0x0D8 ≤ 0x0D8 ∧ 0x0D8 ≤ 0xFF8 ∧ 0x0D8 % 8 = 0) ∧ (0x0D8 ≤ 0xFF8 ∧ 0xFF8 ≤ 0xFF8 ∧ 0xFF8 % 8 = 0) := by decide

/-- One offset and width for each of the five clauses: a misaligned and a narrow register access, a reserved offset, the
hole below KMEM, a misaligned and a wide KMEM access, and the byte past KMEM. -/
theorem witness_UnacceptedAccessesAreIgnored :
    (0x041 < 0x1000 ∧ ¬ ((4 = 8 ∧ 0x041 % 8 = 0) ∨ (4 = 4 ∧ 0x041 % 4 = 0))) ∧
    (0x040 < 0x1000 ∧ ¬ ((1 = 8 ∧ 0x040 % 8 = 0) ∨ (1 = 4 ∧ 0x040 % 4 = 0))) ∧
    (0x0D8 < 0x1000 ∧ (0x0D8 / 8 * 8 = 0x038 ∨ 0x0D8 / 8 * 8 = 0x058 ∨ 0x0D8 ≤ 0x0D8)) ∧
    (0x1000 ≤ 0xFFFF ∧ 0xFFFF < 0x10000) ∧
    (0x10004 < 0x10000 + State.reset.params.kmemSize ∧ ¬ ((8 = 1 ∨ 8 = 2 ∨ 8 = 4 ∨ 8 = 8) ∧ 0x10004 % 8 = 0)) ∧
    (0x10000 < 0x10000 + State.reset.params.kmemSize ∧ ¬ ((16 = 1 ∨ 16 = 2 ∨ 16 = 4 ∨ 16 = 8) ∧ 0x10000 % 16 = 0)) ∧
    (0x10000 + State.reset.params.kmemSize ≤ 0x14000 ∧ 0x14000 < 0x20000) := by decide +kernel

theorem witness_KmemAccessesMoveTheirBytes :
    State.reset.busy = false ∧ (16376 < State.reset.params.kmemSize ∧ 16376 % 8 = 0) ∧
    (16383 < State.reset.params.kmemSize ∧ 16383 % 1 = 0) := by decide +kernel

/-- The last aligned offset of KMEM, and the last offset inside the write for each width. -/
theorem witness_KmemReadsSeeTheBytesWritten :
    (State.reset.busy = false ∧ 16376 < State.reset.params.kmemSize ∧ 16376 % 8 = 0) ∧
    (7 < 8) ∧ (6 < 8 ∧ 6 % 2 = 0) ∧ (4 < 8 ∧ 4 % 4 = 0) ∧ (4 + 4 ≤ 8) ∧
    (1 ≤ 1 ∧ 1 ≤ 3 ∧ 7 + 1 ≤ 8) ∧ (1 ≤ 3 ∧ 3 ≤ 3 ∧ 5 + 3 ≤ 8) := by decide +kernel

/-- The two widths that reach STATUS, with a value that clears both bits. -/
theorem witness_StatusWriteOneToClear :
    ((4 = 4 ∨ 4 = 8) ∧ (8 = 4 ∨ 8 = 8)) ∧ (6 : Word).getLsbD 1 = true ∧ (6 : Word).getLsbD 2 = true := by decide

theorem witness_CtrlWriteStoresTheEnables : (8 = 4 ∨ 8 = 8) ∧ (3 : Word).getLsbD 2 = false := by decide

theorem witness_InputRegisterWriteReplacesItsBits :
    State.reset.busy = false ∧ Reg.s3.isInput = true ∧ Reg.a ≠ Reg.s3 := by decide

/-- An error kept by a dropped write; errors cleared through STATUS, by a soft reset and by a power-on; and steps without
one, the second a soft reset that clears ERRINFO. -/
theorem witness_FirstErrorWinsUntilCleared :
    (∃ t, step { flying 0 with err := true, errcode := 5, agenda := [.host (.write 0x040 8 1)] } = .next t ∧
      t.err = true) ∧
    (∃ t, step { State.reset with err := true, errcode := 5, agenda := [.host (.write 0x018 8 4)] } = .next t ∧
      t.err = false) ∧
    (∃ t, step { State.reset with err := true, errcode := 5, agenda := [.host (.write 0x010 4 4)] } = .next t ∧
      t.err = false) ∧
    (∃ t, step { State.reset with err := true, errcode := 5, agenda := [.powerOn] } = .next t ∧ t.err = false) ∧
    (∃ t, step State.reset = .next t ∧ t.err = false) ∧
    (∃ t, step { State.reset with errinfo := 7, agenda := [.host (.write 0x010 8 7)] } = .next t ∧ t.err = false ∧
      t.errinfo = 0) :=
  ⟨⟨_, rfl, rfl⟩, ⟨_, rfl, rfl⟩, ⟨_, rfl, rfl⟩, ⟨_, rfl, rfl⟩, ⟨_, rfl, rfl⟩, ⟨_, rfl, rfl, rfl⟩⟩

theorem witness_InputsAreStableWhileBusy :
    ∃ t, step { flying 0x2F with agenda := [.host (.write 0x040 8 1)] } = .next t ∧ (flying 0x2F).busy = true ∧
      t.busy = true := ⟨_, rfl, rfl, rfl⟩

theorem witness_SoftResetRestoresRegistersAndKeepsKmem : (4 = 4 ∨ 4 = 8) ∧ (7 : Word).getLsbD 2 = true := by decide

theorem witness_PowerOnResetsAndRedrawsKmem :
    ({ flying 0x2F with agenda := [.powerOn, .engine] } : State).agenda = .powerOn :: [.engine] := rfl

theorem witness_CommandEndsWithinTheAgenda : (flying 0x2F).busy = true := rfl

/-- A state of the invariant with a written byte, an error recorded, a hash in progress and a command in flight. -/
theorem witness_StepKeepsTheInvariant :
    ({ keyAt 16383 [7] with cur := some 0x23, err := true, errcode := 5, errinfo := 0x21,
                            hash := unit 0 0 0 16 1 17 .tail } : State).Inv ∧
    ∃ t, step { keyAt 16383 [7] with cur := some 0x23, err := true, errcode := 5, errinfo := 0x21,
                                     hash := unit 0 0 0 16 1 17 .tail } = .next t := by
  refine ⟨⟨⟨by decide +kernel, by decide +kernel⟩, fun _ => rfl, ⟨by decide +kernel, fun _ => ⟨by decide +kernel, ?_, ?_⟩⟩,
    ⟨by decide +kernel, by decide +kernel⟩⟩, ⟨_, rfl⟩⟩
  · intro h
    exact absurd h (by decide)
  · intro _
    decide +kernel

/-- The byte past the key differs, the key bytes agree. -/
theorem witness_HashStepsReadOnlyTheKeyBytes :
    (pattern 17 (unit 0 0 0 0 17 17 .tail)).sequencerOk ∧
    (∀ x, x < 17 → (pattern 18 (unit 0 0 0 0 17 17 .tail)).kmemByte x =
      (pattern 17 (unit 0 0 0 0 17 17 .tail)).kmemByte x) ∧
    ∃ t, exec .htail (pattern 17 (unit 0 0 0 0 17 17 .tail)) = .next t := by
  refine ⟨?_, by decide +kernel, ⟨_, rfl⟩⟩
  unfold State.sequencerOk
  decide +kernel

end Sys2Proof.Tests
end

section
/-! PROOFS. The state family (10_state.md): what a step can do to the hash unit and to the error record, the host port's
accesses to registers by name, and the obligations about the invariant, ID and CFG, STATUS, CTRL and the reset values. -/

namespace Sys2Proof.Machine

/-! ### The ways a command ends, read from its next state -/

/-- The two ends of a command guarded by one condition. -/
theorem guard_next {c : Prop} [Decidable c] {e : ErrCode} {s u t : State}
    (h : (if c then takeFault e s else commit u) = .next t) :
    (c ∧ t = (s.recordError e (s.curWord.setWidth 64)).complete) ∨ (¬ c ∧ t = u.complete) := by
  by_cases hc : c
  · rw [if_pos hc] at h
    cases h
    exact .inl ⟨hc, rfl⟩
  · rw [if_neg hc] at h
    cases h
    exact .inr ⟨hc, rfl⟩

/-- `exec_cases`, read from the next state. -/
theorem exec_next_cases {i : Instr} {s t : State} (h : exec i s = .next t) :
    (∃ e, e ≠ .busy ∧ t = (s.recordError e (s.curWord.setWidth 64)).complete) ∨
    (∃ u, Touched s u ∧ t = u.complete) := by
  rcases exec_cases i s with ⟨e, he, hx⟩ | ⟨u, hx, hu⟩
  · rw [hx] at h
    cases h
    exact .inl ⟨e, he, rfl⟩
  · rw [hx] at h
    cases h
    exact .inr ⟨u, hu, rfl⟩

/-- A guarded command whose commit keeps the hash unit keeps it. -/
theorem guard_next_hash_eq {c : Prop} [Decidable c] {e : ErrCode} {s u t : State} (hu : u.hash = s.hash)
    (h : (if c then takeFault e s else commit u) = .next t) : t.hash = s.hash := by
  rcases guard_next h with ⟨-, rfl⟩ | ⟨-, rfl⟩
  · rfl
  · exact hu

theorem readInto_next_hash_eq {d : Dst} {width : Nat} {v : Word} {s t : State} (h : readInto d width v s = .next t) :
    t.hash = s.hash :=
  guard_next_hash_eq (by cases d <;> rfl) h

/-- What a command leaves in the hash unit: the unit as it was, the body of HINIT, HCHUNK, HFOLD or HTAIL in a state that
command accepts, or the phase NONE after HFINAL and HASH (42_hash.md R130 to R137). -/
theorem exec_next_hash {i : Instr} {s t : State} (h : exec i s = .next t) :
    t.hash = s.hash ∨
    (s.koff.toNat + s.len.toNat ≤ s.params.kmemSize ∧ t.hash = initBody s.secret s.seed s.koff s.len s.hash) ∨
    (s.hash.phase = .chunk ∧ 48 ≤ s.hash.rem.toNat ∧ t.hash = chunkBody s.kmemByte s.secret s.hash) ∨
    (s.hash.phase = .chunk ∧ s.hash.rem.toNat < 48 ∧ t.hash = foldBody s.hash) ∨
    (s.hash.phase = .tail ∧ 16 < s.hash.rem.toNat ∧ t.hash = tailBody s.kmemByte s.secret s.hash) ∨
    t.hash.phase = .none := by
  cases i with
  | nop | mum | mix | prime =>
    cases h
    exact .inl rfl
  | rd8 d => exact .inl (readInto_next_hash_eq h)
  | rd4 d => exact .inl (readInto_next_hash_eq h)
  | rd3 d k =>
    by_cases hk : k = 0
    · rw [show exec (.rd3 d k) s = takeFault .illegal s from if_pos hk] at h
      cases h
      exact .inl rfl
    · exact .inl (readInto_next_hash_eq ((if_neg hk).symm.trans h))
  | mulmod => exact .inl (guard_next_hash_eq (by rfl) h)
  | powmod => exact .inl (guard_next_hash_eq (by rfl) h)
  | hinit =>
    rcases guard_next h with ⟨-, rfl⟩ | ⟨hc, rfl⟩
    · exact .inl rfl
    · exact .inr (.inl ⟨by simpa [State.keyOutside] using hc, rfl⟩)
  | hchunk =>
    rcases guard_next h with ⟨-, rfl⟩ | ⟨hc, rfl⟩
    · exact .inl rfl
    · obtain ⟨hp, hr⟩ := not_or.1 hc
      exact .inr (.inr (.inl ⟨not_not.1 hp, not_lt.1 hr, rfl⟩))
  | hfold =>
    rcases guard_next h with ⟨-, rfl⟩ | ⟨hc, rfl⟩
    · exact .inl rfl
    · obtain ⟨hp, hr⟩ := not_or.1 hc
      exact .inr (.inr (.inr (.inl ⟨not_not.1 hp, not_le.1 hr, rfl⟩)))
  | htail =>
    rcases guard_next h with ⟨-, rfl⟩ | ⟨hc, rfl⟩
    · exact .inl rfl
    · obtain ⟨hp, hr⟩ := not_or.1 hc
      exact .inr (.inr (.inr (.inr (.inl ⟨not_not.1 hp, not_le.1 hr, rfl⟩))))
  | hfinal =>
    rcases guard_next h with ⟨-, rfl⟩ | ⟨-, rfl⟩
    · exact .inl rfl
    · exact .inr (.inr (.inr (.inr (.inr rfl))))
  | hash =>
    rcases guard_next h with ⟨-, rfl⟩ | ⟨-, rfl⟩
    · exact .inl rfl
    · exact .inr (.inr (.inr (.inr (.inr rfl))))

/-! ### The hash sequencer's invariant, kept by each body -/

/-- `State.sequencerOk`, of a hash unit and a key memory of `size` bytes (10_state.md R45). -/
def HashUnit.positionOk (u : HashUnit) (size : Nat) : Prop :=
  (u.phase ≠ .none →
    u.ptr.toNat + u.rem.toNat = u.hbase.toNat + u.hlen.toNat ∧
    u.hbase.toNat + u.hlen.toNat ≤ size ∧
    u.rem.toNat ≤ u.hlen.toNat) ∧
  (u.phase = .tail → u.rem.toNat < 48)

theorem State.sequencerOk_iff (s : State) : s.sequencerOk ↔ s.hash.positionOk s.params.kmemSize := Iff.rfl

theorem HashUnit.positionOk_of_none {u : HashUnit} {size : Nat} (h : u.phase = .none) : u.positionOk size :=
  ⟨fun hn => absurd h hn, fun ht => absurd (h.symm.trans ht) (by decide)⟩

/-- Moving the window by `n` bytes of the rest keeps the end of the key where it is. -/
theorem window_advance {p r n : Word} {stop size : Nat} (hstop : p.toNat + r.toNat = stop) (hsize : stop ≤ size)
    (h64 : size ≤ 0x10000) (hn : n.toNat ≤ r.toNat) :
    (p + n).toNat + (r - n).toNat = stop ∧ (r - n).toNat = r.toNat - n.toNat := by
  have hsub : (r - n).toNat = r.toNat - n.toNat := BitVec.toNat_sub_of_le hn
  have hadd : (p + n).toNat = p.toNat + n.toNat := BitVec.toNat_add_of_lt (by omega)
  omega

theorem initBody_positionOk {koff len : Word} {size : Nat} (h : koff.toNat + len.toNat ≤ size) (sec : Secret)
    (seed : Word) (u : HashUnit) : (initBody sec seed koff len u).positionOk size :=
  ⟨fun _ => ⟨rfl, h, le_rfl⟩, fun ht => absurd ht (by simp [initBody])⟩

theorem chunkBody_positionOk {u : HashUnit} {size : Nat} (h : u.positionOk size) (h64 : size ≤ 0x10000)
    (hp : u.phase = .chunk) (hr : 48 ≤ u.rem.toNat) (bytes : Nat → Byte) (sec : Secret) :
    (chunkBody bytes sec u).positionOk size := by
  obtain ⟨hstop, hsize, hrem⟩ := h.1 (by simp [hp])
  obtain ⟨hstop', hrem'⟩ := window_advance (n := 48) hstop hsize h64 hr
  exact ⟨fun _ => ⟨hstop', hsize, by simp only [chunkBody]; omega⟩,
    fun ht => absurd (hp.symm.trans ht) (by decide)⟩

theorem foldBody_positionOk {u : HashUnit} {size : Nat} (h : u.positionOk size) (hp : u.phase = .chunk)
    (hr : u.rem.toNat < 48) : (foldBody u).positionOk size :=
  ⟨fun _ => h.1 (by simp [hp]), fun _ => hr⟩

theorem tailBody_positionOk {u : HashUnit} {size : Nat} (h : u.positionOk size) (h64 : size ≤ 0x10000)
    (hp : u.phase = .tail) (hr : 16 < u.rem.toNat) (bytes : Nat → Byte) (sec : Secret) :
    (tailBody bytes sec u).positionOk size := by
  obtain ⟨hstop, hsize, hrem⟩ := h.1 (by simp [hp])
  have hlt := h.2 hp
  obtain ⟨hstop', hrem'⟩ := window_advance (n := 16) hstop hsize h64 hr.le
  exact ⟨fun _ => ⟨hstop', hsize, by simp only [tailBody]; omega⟩, fun _ => by simp only [tailBody]; omega⟩

/-- No command changes the parameters. -/
theorem exec_next_params {i : Instr} {s t : State} (h : exec i s = .next t) : t.params = s.params := by
  rcases exec_next_cases h with ⟨e, -, rfl⟩ | ⟨u, hu, rfl⟩
  · rfl
  · rw [hu]
    rfl

theorem exec_keeps_sequencerOk {i : Instr} {s t : State} (hs : s.sequencerOk) (h : exec i s = .next t) :
    t.sequencerOk := by
  rw [State.sequencerOk_iff] at hs ⊢
  rw [exec_next_params h]
  have h64 := kmemSize_le s.params
  rcases exec_next_hash h with hu | ⟨hk, hu⟩ | ⟨hp, hr, hu⟩ | ⟨hp, hr, hu⟩ | ⟨hp, hr, hu⟩ | hp
  · rwa [hu]
  · rw [hu]
    exact initBody_positionOk hk _ _ _
  · rw [hu]
    exact chunkBody_positionOk hs h64 hp hr _ _
  · rw [hu]
    exact foldBody_positionOk hs hp hr
  · rw [hu]
    exact tailBody_positionOk hs h64 hp hr _ _
  · exact HashUnit.positionOk_of_none hp

/-! ### The error record -/

/-- What ERRINFO holds for an error: an offset of the window under bit 63 for EBUSY, a command word for every other
code (10_state.md R31). -/
def ErrCode.infoOk (e : ErrCode) (info : Word) : Prop :=
  (e = .busy → ∃ o, o < 0x20000 ∧ info = busyInfo o) ∧ (e ≠ .busy → info.toNat < 2 ^ 32)

theorem ErrCode.infoOk_busyInfo {o : Nat} (h : o < 0x20000) : ErrCode.busy.infoOk (busyInfo o) :=
  ⟨fun _ => ⟨o, h, rfl⟩, fun hn => absurd rfl hn⟩

theorem ErrCode.infoOk_cmdWord {e : ErrCode} (he : e ≠ .busy) (w : CmdWord) : e.infoOk (w.setWidth 64) := by
  refine ⟨fun hb => absurd hb he, fun _ => ?_⟩
  rw [BitVec.toNat_setWidth]
  exact lt_of_le_of_lt (Nat.mod_le _ _) w.isLt

theorem ErrCode.code_mem (e : ErrCode) : e.code ∈ ([1, 2, 3, 4, 5] : List (BitVec 8)) := by cases e <;> decide

theorem ErrCode.code_eq_three_iff (e : ErrCode) : e.code = 3 ↔ e = .busy := by cases e <;> decide

theorem State.errorOk_congr {s t : State} (he : t.err = s.err) (hc : t.errcode = s.errcode)
    (hi : t.errinfo = s.errinfo) : t.errorOk ↔ s.errorOk := by
  unfold State.errorOk
  rw [he, hc, hi]

/-- Recording an error keeps the form of the record: the first error stands, or the new one is written whole
(60_exceptions.md R190). -/
theorem State.errorOk_recordError {s : State} {e : ErrCode} {info : Word} (hs : s.errorOk) (hi : e.infoOk info) :
    (s.recordError e info).errorOk := by
  refine ⟨fun h => absurd h (by simp), fun _ => ?_⟩
  cases he : s.err with
  | true => simpa [he] using hs.2 he
  | false =>
    rw [State.recordError_errcode, State.recordError_errinfo, he]
    exact ⟨e.code_mem, fun h3 => hi.1 (e.code_eq_three_iff.1 h3), fun h3 => hi.2 (mt e.code_eq_three_iff.2 h3)⟩

theorem State.errorOk_writeStatus {s : State} (hs : s.errorOk) (v : Word) : (s.writeStatus v).errorOk := by
  cases hv : v.getLsbD 2 with
  | true => exact ⟨fun _ => by simp [hv], fun h => absurd h (by simp [hv])⟩
  | false =>
    have herr : (s.writeStatus v).err = s.err := by rw [State.writeStatus_err, hv, Bool.not_false, Bool.and_true]
    have hcode : (s.writeStatus v).errcode = s.errcode := by rw [State.writeStatus_errcode, hv, if_neg Bool.false_ne_true]
    exact (State.errorOk_congr herr hcode rfl).2 hs

/-! ### The invariant, kept by each operation of a step -/

theorem reset_inv : State.reset.Inv where
  memory := ⟨reset_memory_wf, fun _ hc => absurd hc List.not_mem_nil⟩
  protocol := fun _ => rfl
  error := ⟨fun _ => rfl, fun h => absurd h (by decide)⟩
  sequencer := HashUnit.positionOk_of_none rfl

theorem State.Inv.recordError {s : State} (h : s.Inv) {e : ErrCode} {info : Word} (hi : e.infoOk info) :
    (s.recordError e info).Inv :=
  ⟨h.memory, h.protocol, State.errorOk_recordError h.error hi, h.sequencer⟩

theorem State.Inv.dropBusy {s : State} (h : s.Inv) {o : Nat} (ho : o < 0x20000) : (s.dropBusy o).Inv :=
  h.recordError (ErrCode.infoOk_busyInfo ho)

theorem State.Inv.complete {s : State} (h : s.Inv) : s.complete.Inv :=
  ⟨h.memory, fun hb => absurd hb (by simp [State.busy]), h.error, h.sequencer⟩

theorem State.Inv.setAgenda {s : State} (h : s.Inv) (turns : List Turn) : (s.setAgenda turns).Inv :=
  ⟨h.memory, h.protocol, h.error, h.sequencer⟩

theorem State.Inv.issue {s : State} (h : s.Inv) (w : CmdWord) : (s.issue w).Inv :=
  ⟨h.memory, fun _ => rfl, h.error, h.sequencer⟩

theorem State.Inv.setReg {s : State} (h : s.Inv) (r : Reg) (v : Word) : (s.setReg r v).Inv := by
  cases r <;> exact ⟨h.memory, h.protocol, h.error, h.sequencer⟩

theorem State.Inv.softReset {s : State} (h : s.Inv) : s.softReset.Inv :=
  ⟨h.memory, reset_inv.protocol, reset_inv.error, HashUnit.positionOk_of_none rfl⟩

theorem State.powerOn_inv (s : State) : s.powerOn.Inv :=
  ⟨⟨reset_memory_wf, fun _ hc => absurd hc List.not_mem_nil⟩, reset_inv.protocol, reset_inv.error,
    HashUnit.positionOk_of_none rfl⟩

theorem State.Inv.writeCtrl {s : State} (h : s.Inv) (v : Word) : (s.writeCtrl v).Inv := by
  unfold State.writeCtrl
  split
  · exact h.softReset
  · exact ⟨h.memory, h.protocol, h.error, h.sequencer⟩

theorem State.Inv.writeStatus {s : State} (h : s.Inv) (v : Word) : (s.writeStatus v).Inv :=
  ⟨h.memory, fun hb => by simp [h.protocol hb], State.errorOk_writeStatus h.error v, h.sequencer⟩

theorem State.Inv.storeKmem {s : State} (h : s.Inv) {i n : Nat} (hi : i + n ≤ s.params.kmemSize) (v : Word) :
    (s.storeKmem i n v).Inv := by
  obtain ⟨hwf, hbound⟩ := h.memory
  refine ⟨⟨Memory.wf_store hwf i n v, fun c hc => ?_⟩, h.protocol, h.error, h.sequencer⟩
  rcases Memory.mem_store hc with ⟨-, hlt⟩ | hc
  · exact lt_of_lt_of_le hlt hi
  · exact hbound c hc

theorem State.Inv.hostAccess {s : State} (h : s.Inv) (acc : Access) : (s.hostAccess acc).Inv := by
  rcases s.hostAccess_cases acc with ⟨k, v, hx⟩ | ⟨addr, bytes, v, -, hw⟩
  · rw [hx]
    exact ⟨h.memory, h.protocol, h.error, h.sequencer⟩
  rcases hw with ⟨-, -, hx⟩ | ⟨-, -, hx⟩ | ⟨-, o, ho, -, hx⟩ | ⟨-, -, -, -, hx⟩ | ⟨-, q, x, -, hx⟩ | ⟨-, i, n, hi, hx⟩
  · exact hx ▸ h.writeCtrl v
  · exact hx ▸ h.writeStatus v
  · exact hx ▸ h.dropBusy ho
  · exact hx ▸ h.issue _
  · exact hx ▸ h.setReg q x
  · exact hx ▸ h.storeKmem hi v

/-- A command fault keeps the invariant: its code is not EBUSY, and it records a command word (60_exceptions.md R196). -/
theorem State.Inv.commandFault {s : State} (h : s.Inv) {e : ErrCode} (he : e ≠ .busy) :
    (s.recordError e (s.curWord.setWidth 64)).complete.Inv :=
  (h.recordError (ErrCode.infoOk_cmdWord he _)).complete

theorem exec_keeps_inv {i : Instr} {s t : State} (hs : s.Inv) (h : exec i s = .next t) : t.Inv := by
  have hseq := exec_keeps_sequencerOk hs.sequencer h
  rcases exec_next_cases h with ⟨e, he, rfl⟩ | ⟨u, hu, rfl⟩
  · exact hs.commandFault he
  · rw [hu] at hseq ⊢
    exact ⟨hs.memory, fun hb => absurd hb (by simp [State.busy]), hs.error, hseq⟩

theorem engineTurn_keeps_inv {s t : State} (hs : s.Inv) (h : engineTurn s = .next t) : t.Inv := by
  rcases engineTurn_cases s with ⟨-, hx⟩ | ⟨w, -, ⟨e, he, hx⟩ | ⟨i, -, hx⟩⟩
  · rw [hx] at h
    cases h
    exact hs
  · rw [hx] at h
    cases h
    exact hs.commandFault he
  · exact exec_keeps_inv hs (hx.symm.trans h)

/-- Settles O58: no byte written, no command, no error, and the phase NONE. -/
theorem resetSatisfiesTheInvariant : Obligations.ResetSatisfiesTheInvariant := reset_inv

/-- Settles O59: each of the three kinds of step is made of operations that keep the invariant. -/
theorem stepKeepsTheInvariant : Obligations.StepKeepsTheInvariant := by
  intro s t hs h
  have htaken : s.taken.Inv := hs.setAgenda _
  rcases step_cases s with ⟨-, hx⟩ | ⟨acc, turns, -, hx⟩ | ⟨turns, -, hx⟩
  · exact engineTurn_keeps_inv htaken (hx.symm.trans h)
  · rw [hx] at h
    cases h
    exact htaken.hostAccess acc
  · rw [hx] at h
    cases h
    exact s.taken.powerOn_inv

/-! ### Accesses to a register by name -/

theorem State.busWrite_full (s : State) (r : Reg) (v : Word) :
    s.busWrite r.offset 8 v = s.writeReg r.offset r .full v := by
  rw [s.busWrite_eq (lt_trans r.offset_lt (by decide)), State.hostWrite, target_full]

theorem State.busWrite_low (s : State) (r : Reg) (v : Word) :
    s.busWrite r.offset 4 v = s.writeReg r.offset r .low v := by
  rw [s.busWrite_eq (lt_trans r.offset_lt (by decide)), State.hostWrite, target_low]

theorem State.busWrite_high (s : State) (r : Reg) (v : Word) :
    s.busWrite (r.offset + 4) 4 v = s.writeReg (r.offset + 4) r .high v := by
  have h := r.offset_lt
  rw [s.busWrite_eq (by omega), State.hostWrite, target_high]

theorem State.busRead_full (s : State) (r : Reg) :
    s.busRead r.offset 8 = (if s.readDraws r then s.countDraw else s).answer (s.readValue r) := by
  rw [s.busRead_eq (lt_trans r.offset_lt (by decide)), State.hostRead, target_full]
  rfl

/-- A write at a register's own offset, whole or of its low half, is no write of the high half. -/
theorem State.busWrite_wide (s : State) (r : Reg) {n : Nat} (hn : n = 4 ∨ n = 8) (v : Word) :
    ∃ lane, lane ≠ .high ∧ s.busWrite r.offset n v = s.writeReg r.offset r lane v := by
  rcases hn with rfl | rfl
  · exact ⟨.low, by decide, s.busWrite_low r v⟩
  · exact ⟨.full, by decide, s.busWrite_full r v⟩

/-! ### STATUS and CTRL -/

theorem State.busWrite_status (s : State) {n : Nat} (hn : n = 4 ∨ n = 8) (v : Word) :
    s.busWrite 0x018 n v = s.writeStatus v := by
  obtain ⟨lane, hl, hx⟩ := s.busWrite_wide .status hn v
  exact hx.trans (if_neg hl)

theorem State.busWrite_ctrl (s : State) {n : Nat} (hn : n = 4 ∨ n = 8) (v : Word) :
    s.busWrite 0x010 n v = s.writeCtrl v := by
  obtain ⟨lane, hl, hx⟩ := s.busWrite_wide .ctrl hn v
  exact hx.trans (if_neg hl)

/-- Settles O47: the write reaches STATUS through the low lane or whole, and its high half nothing. -/
theorem statusWriteOneToClear : Obligations.StatusWriteOneToClear := by
  intro s v n hn
  refine ⟨?_, s.busWrite_high .status v⟩
  rw [s.busWrite_status hn, State.writeStatus]
  cases v.getLsbD 1 <;> cases v.getLsbD 2 <;> simp

/-- CTRL reads bits 1:0 of the word its enables came from, and 0 above (10_state.md R26). -/
theorem State.ctrlWord_of_enables {s : State} {v : Word} (hd : s.ieDone = v.getLsbD 0) (he : s.ieErr = v.getLsbD 1) :
    s.ctrlWord = (0 : BitVec 62) ++ v.extractLsb' 0 2 := by
  have hbits : (v.extractLsb' 0 2).toNat = (v.getLsbD 1).toNat * 2 + (v.getLsbD 0).toNat := by
    simp only [BitVec.extractLsb'_toNat, BitVec.getLsbD, Nat.toNat_testBit]
    omega
  apply BitVec.eq_of_toNat_eq
  rw [State.ctrlWord, hd, he]
  simp only [toNat_append_eq, hbits, BitVec.toNat_ofBool, BitVec.ofNat_eq_ofNat, BitVec.toNat_ofNat]
  omega

/-- Settles O48: with bit 2 clear the write is no soft reset. -/
theorem ctrlWriteStoresTheEnables : Obligations.CtrlWriteStoresTheEnables := by
  intro s v n hn hv
  have hx : s.busWrite 0x010 n v = { s with ieDone := v.getLsbD 0, ieErr := v.getLsbD 1 } := by
    rw [s.busWrite_ctrl hn, State.writeCtrl, if_neg (ne_true_of_eq_false hv)]
  refine ⟨hx, ?_, s.busWrite_high .ctrl v⟩
  rw [hx]
  exact State.ctrlWord_of_enables rfl rfl

theorem Phase.bits_toNat (p : Phase) :
    p.bits.toNat = if p = .none then 0 else if p = .chunk then 1 else 2 := by
  cases p <;> rfl

/-- Settles O50: STATUS is a concatenation, whose value is that of its parts at their weights. -/
theorem statusFieldsStandAtTheirBits : Obligations.StatusFieldsStandAtTheirBits := by
  intro s
  refine ⟨?_, by cases s.hash.phase <;> simp⟩
  rw [State.regValue, State.statusWord, State.statusWith]
  simp only [toNat_append_eq, BitVec.toNat_ofBool, Phase.bits_toNat, BitVec.ofNat_eq_ofNat, BitVec.toNat_ofNat]
  omega

/-- Settles O54: each register of the table on its own. -/
theorem resetLeavesTableValues : Obligations.ResetLeavesTableValues :=
  ⟨fun r => by cases r <;> decide, rfl, rfl, rfl, rfl⟩

/-! ### Registers that no write changes -/

theorem regAt_eq_some {o : Nat} {r : Reg} (h : regAt o = some r) : r.offset = o := by
  simpa using List.find?_some h

/-- The read-only registers (10_state.md R44). -/
def Reg.isReadOnly : Reg → Bool
  | .id | .cfg | .errinfo | .h | .acc0 | .acc1 | .acc2 | .ptr | .rem | .hbase | .hlen => true
  | .ctrl | .status | .cmd | .off | .a | .b | .n | .s0 | .s1 | .s2 | .s3 | .seed | .koff | .len => false

theorem State.writeReg_readOnly {r : Reg} (h : r.isReadOnly = true) (s : State) (o : Nat) (lane : Lane) (v : Word) :
    s.writeReg o r lane v = s := by
  cases r with
  | id | cfg | errinfo | h | acc0 | acc1 | acc2 | ptr | rem | hbase | hlen => rfl
  | _ => cases h

theorem State.busWrite_reserved (s : State) {o : Nat} (ho : o < 0x1000) (ha : o % 8 = 0) (h : regAt o = none)
    (v : Word) : s.busWrite o 8 v = s ∧ s.busWrite o 4 v = s ∧ s.busWrite (o + 4) 4 v = s := by
  have ho4 : o + 4 < 0x1000 := by omega
  have ha4 : (o + 4) % 8 = 4 := by omega
  rw [s.busWrite_eq (by omega), s.busWrite_eq (by omega), s.busWrite_eq (by omega)]
  simp [State.hostWrite, target, regTarget, ho, ho4, ha, ha4, h]

theorem State.busWrite_readOnly (s : State) {r : Reg} (h : r.isReadOnly = true) (v : Word) :
    s.busWrite r.offset 8 v = s ∧ s.busWrite r.offset 4 v = s ∧ s.busWrite (r.offset + 4) 4 v = s := by
  rw [s.busWrite_full, s.busWrite_low, s.busWrite_high]
  simp only [State.writeReg_readOnly h, and_self]

/-- The read-only and the reserved register offsets, as 10_state.md R44 and R23 list them. -/
def ignoredOffset (o : Nat) : Prop :=
  o ∈ [0x000, 0x008, 0x028, 0x038, 0x058, 0x098, 0x0A0, 0x0A8, 0x0B0, 0x0B8, 0x0C0, 0x0C8, 0x0D0] ∨
    (0x0D8 ≤ o ∧ o ≤ 0xFF8 ∧ o % 8 = 0)

theorem ignoredOffset_aligned {o : Nat} (h : ignoredOffset o) : o < 0x1000 ∧ o % 8 = 0 := by
  rcases h with h | h
  · exact (by decide : ∀ o ∈ [0x000, 0x008, 0x028, 0x038, 0x058, 0x098, 0x0A0, 0x0A8, 0x0B0, 0x0B8, 0x0C0, 0x0C8, 0x0D0],
      o < 0x1000 ∧ o % 8 = 0) o h
  · omega

theorem Reg.isReadOnly_of_ignoredOffset {r : Reg} (h : ignoredOffset r.offset) : r.isReadOnly = true := by
  unfold ignoredOffset at h
  cases r with
  | id | cfg | errinfo | h | acc0 | acc1 | acc2 | ptr | rem | hbase | hlen => rfl
  | _ => exact absurd h (by decide)

/-- Settles O43: at such an offset stands a read-only register or none. -/
theorem readOnlyAndReservedWritesAreIgnored : Obligations.ReadOnlyAndReservedWritesAreIgnored := by
  intro s v o (h : ignoredOffset o)
  obtain ⟨ho, ha⟩ := ignoredOffset_aligned h
  cases hr : regAt o with
  | none => exact s.busWrite_reserved ho ha hr v
  | some r =>
    obtain rfl := regAt_eq_some hr
    exact s.busWrite_readOnly (Reg.isReadOnly_of_ignoredOffset h) v

/-! ### ID and CFG -/

theorem State.unstable_eq_false (s : State) {r : Reg} (h : ∀ i : Instr, i.writes.contains r = false) :
    s.unstable r = false := by
  unfold State.unstable
  split
  · exact h _
  · rfl

/-- A whole read of a register that no command writes, STATUS apart, returns its value in every state, in flight or not
(20_memory.md R83). -/
theorem State.busRead_unwritten (s : State) {r : Reg} (h : ∀ i : Instr, i.writes.contains r = false)
    (hr : r ≠ .status) : (s.busRead r.offset 8).hostData = s.regValue r := by
  rw [s.busRead_full, State.answer_hostData, State.readValue, if_neg (ne_true_of_eq_false (s.unstable_eq_false h)),
    if_neg (fun hc => hr hc.1)]

/-- No command's write set holds ID or CFG (30_encoding.md R93). -/
theorem id_cfg_not_written (i : Instr) : i.writes.contains .id = false ∧ i.writes.contains .cfg = false := by
  cases i with
  | rd8 d | rd4 d | rd3 d => cases d <;> exact ⟨rfl, rfl⟩
  | _ => exact ⟨rfl, rfl⟩

theorem kmemSize_eq_pow (p : Params) : p.kmemSize = 2 ^ (6 + p.kmemExp.val) := by
  rw [pow_add]
  rfl

theorem State.id_fields (s : State) :
    (s.regValue .id).extractLsb' 32 32 = 0x57594D58 ∧ (s.regValue .id).extractLsb' 16 16 = 0x0007 ∧
      (s.regValue .id).extractLsb' 0 16 = 0x0001 ∧ s.regValue .id = 0x57594D5800070001 := by
  rw [State.regValue]
  decide

theorem State.cfg_toNat (s : State) : (s.regValue .cfg).toNat = s.params.kmemSize := by
  have h := kmemSize_le s.params
  exact (BitVec.toNat_ofNat _ _).trans (Nat.mod_eq_of_lt (by omega))

theorem State.writeCtrl_params (s : State) (v : Word) : (s.writeCtrl v).params = s.params := by
  unfold State.writeCtrl
  split <;> rfl

theorem State.hostAccess_params (s : State) (acc : Access) : (s.hostAccess acc).params = s.params := by
  rcases s.hostAccess_cases acc with ⟨k, v, hx⟩ | ⟨addr, bytes, v, -, hw⟩
  · rw [hx]
  rcases hw with ⟨-, -, hx⟩ | ⟨-, -, hx⟩ | ⟨-, o, -, -, hx⟩ | ⟨-, -, -, -, hx⟩ | ⟨-, q, x, -, hx⟩ | ⟨-, i, n, -, hx⟩
  · rw [hx, s.writeCtrl_params]
  · rw [hx, State.writeStatus_params]
  · rw [hx, State.dropBusy, State.recordError_params]
  · rw [hx, State.issue_params]
  · rw [hx, State.setReg_params]
  · rw [hx, State.storeKmem_params]

theorem engineTurn_next_params {s t : State} (h : engineTurn s = .next t) : t.params = s.params := by
  rcases engineTurn_cases s with ⟨-, hx⟩ | ⟨w, -, ⟨e, -, hx⟩ | ⟨i, -, hx⟩⟩
  · rw [hx] at h
    cases h
    rfl
  · rw [hx] at h
    cases h
    rfl
  · exact exec_next_params (hx.symm.trans h)

/-- No step changes the parameters. -/
theorem step_next_params {s t : State} (h : step s = .next t) : t.params = s.params := by
  rcases step_cases s with ⟨-, hx⟩ | ⟨acc, turns, -, hx⟩ | ⟨turns, -, hx⟩
  · exact (engineTurn_next_params (hx.symm.trans h) : t.params = s.taken.params)
  · rw [hx] at h
    cases h
    exact s.taken.hostAccess_params acc
  · rw [hx] at h
    cases h
    rfl

/-- Settles O38: CFG is a function of the parameters, which no step changes, and no command writes ID or CFG. -/
theorem idAndConfigurationNeverChange : Obligations.IdAndConfigurationNeverChange := by
  intro s
  refine ⟨s.id_fields, s.cfg_toNat, ⟨s.params.kmemExp, by omega, kmemSize_eq_pow s.params⟩,
    s.busRead_unwritten (r := .id) (fun i => (id_cfg_not_written i).1) (by decide),
    s.busRead_unwritten (r := .cfg) (fun i => (id_cfg_not_written i).2) (by decide),
    fun v => ⟨(s.busWrite_readOnly (r := .id) rfl v).1, (s.busWrite_readOnly (r := .cfg) rfl v).1⟩, fun t h => ?_⟩
  have hp := step_next_params h
  exact ⟨hp, by rw [State.regValue, State.regValue, hp]⟩

/-! ### What the hash steps read -/

section
variable {f g : Nat → Byte} {lo hi : Nat}

theorem memRead_congr (h : Set.EqOn f g (Set.Ico lo hi)) {x n : Nat} (hx : lo ≤ x) (hn : x + n ≤ hi) :
    memRead f x n = memRead g x n := by
  induction n with
  | zero => rfl
  | succ n ih => rw [memRead, memRead, ih (by omega), @h (x + n) ⟨by omega, by omega⟩]

theorem read8_congr (h : Set.EqOn f g (Set.Ico lo hi)) {x : Nat} (hx : lo ≤ x) (hn : x + 8 ≤ hi) : read8 f x = read8 g x :=
  memRead_congr h hx hn

theorem read4_congr (h : Set.EqOn f g (Set.Ico lo hi)) {x : Nat} (hx : lo ≤ x) (hn : x + 4 ≤ hi) : read4 f x = read4 g x :=
  memRead_congr h hx hn

theorem read3_congr (h : Set.EqOn f g (Set.Ico lo hi)) {x k : Nat} (hx : lo ≤ x) (hk : 0 < k) (hn : x + k ≤ hi) :
    read3 f x k = read3 g x k := by
  rw [read3, read3, @h x ⟨hx, by omega⟩, @h (x + k / 2) ⟨by omega, by omega⟩, @h (x + k - 1) ⟨by omega, by omega⟩]

theorem chunkBody_congr {u : HashUnit} (h : Set.EqOn f g (Set.Ico lo hi)) (hlo : lo ≤ u.ptr.toNat) (hhi : u.ptr.toNat + 48 ≤ hi)
    (sec : Secret) : chunkBody f sec u = chunkBody g sec u := by
  have hr : ∀ k, k + 8 ≤ 48 → read8 f (u.ptr.toNat + k) = read8 g (u.ptr.toNat + k) := fun k hk =>
    read8_congr h (by omega) (by omega)
  have hr0 := hr 0 (by decide)
  simp only [chunkBody, hr 8 (by decide), hr 16 (by decide), hr 24 (by decide), hr 32 (by decide), hr 40 (by decide),
    show read8 f u.ptr.toNat = read8 g u.ptr.toNat from hr0]

theorem tailBody_congr {u : HashUnit} (h : Set.EqOn f g (Set.Ico lo hi)) (hlo : lo ≤ u.ptr.toNat) (hhi : u.ptr.toNat + 16 ≤ hi)
    (sec : Secret) : tailBody f sec u = tailBody g sec u := by
  simp only [tailBody, read8_congr h hlo (by omega), read8_congr h (x := u.ptr.toNat + 8) (by omega) (by omega)]

/-- The final operands are read inside the key: the last 16 bytes of a long key, and of a short one its first and last
bytes (42_hash.md R134, R136). -/
theorem finalAB_congr {u : HashUnit} (h : Set.EqOn f g (Set.Ico u.hbase.toNat (u.hbase.toNat + u.hlen.toNat)))
    (hstop : u.ptr.toNat + u.rem.toNat = u.hbase.toNat + u.hlen.toNat) : finalAB f u = finalAB g u := by
  unfold finalAB
  dsimp only
  split_ifs with h16 h4 h0
  · rw [read8_congr h (by omega) (by omega), read8_congr h (x := u.ptr.toNat + u.rem.toNat - 8) (by omega) (by omega)]
  · have hsh : u.hlen.toNat / 8 * 4 + 4 ≤ u.hlen.toNat := by omega
    rw [read4_congr h (x := u.hbase.toNat) (by omega) (by omega),
      read4_congr h (x := u.hbase.toNat + u.hlen.toNat / 8 * 4) (by omega) (by omega),
      read4_congr h (x := u.hbase.toNat + u.hlen.toNat - 4) (by omega) (by omega),
      read4_congr h (x := u.hbase.toNat + u.hlen.toNat - 4 - u.hlen.toNat / 8 * 4) (by omega) (by omega)]
  · rw [read3_congr h (by omega) h0 (by omega)]
  · rfl

end

/-- `s` with another key memory: its written bytes and its power-on draw. -/
def State.withKmem (s : State) (m : Memory) (p : Nat) : State := { s with kmem := m, powerOns := p }

theorem State.withKmem_hash (s : State) (m : Memory) (p : Nat) : (s.withKmem m p).hash = s.hash := rfl

/-- In a phase other than NONE the window starts inside the key and its rest ends with the key. -/
theorem State.window_in_key {s : State} (hs : s.sequencerOk) {q : Phase} (hp : s.hash.phase = q) (hq : q ≠ .none) :
    s.hash.hbase.toNat ≤ s.hash.ptr.toNat ∧
      s.hash.ptr.toNat + s.hash.rem.toNat = s.hash.hbase.toNat + s.hash.hlen.toNat := by
  obtain ⟨hstop, -, hrem⟩ := hs.1 (hp ▸ hq)
  omega

/-- A guarded hash step ends alike over another key memory where its body gives the same hash unit. -/
theorem guard_withKmem {c : Prop} [Decidable c] {e : ErrCode} {s t : State} {u v : HashUnit} (m : Memory) (p : Nat)
    (hv : ¬ c → v = u) (h : (if c then takeFault e s else commit (s.setHash u)) = .next t) :
    (if c then takeFault e (s.withKmem m p) else commit ((s.withKmem m p).setHash v)) = .next (t.withKmem m p) := by
  rcases guard_next h with ⟨hc, rfl⟩ | ⟨hc, rfl⟩
  · rw [if_pos hc]
    rfl
  · rw [if_neg hc, hv hc]
    rfl

/-- Settles O60: under the sequencer's invariant the window of each step lies in the key. -/
theorem hashStepsReadOnlyTheKeyBytes : Obligations.HashStepsReadOnlyTheKeyBytes := by
  intro s s' t i hs hs' hkey hi h
  obtain ⟨m, p, rfl⟩ : ∃ m p, s' = s.withKmem m p := ⟨_, _, hs'⟩
  have hag : Set.EqOn (s.withKmem m p).kmemByte s.kmemByte
      (Set.Ico s.hash.hbase.toNat (s.hash.hbase.toNat + s.hash.hlen.toNat)) := fun x hx => hkey x hx.1 hx.2
  simp only [List.mem_cons, List.not_mem_nil, or_false] at hi
  rcases hi with rfl | rfl | rfl | rfl
  · refine guard_withKmem m p (fun hc => ?_) h
    rw [State.withKmem_hash] at hc
    obtain ⟨hp, hr⟩ := not_or.1 hc
    obtain ⟨hlo, hstop⟩ := State.window_in_key hs (not_not.1 hp) (by decide)
    exact chunkBody_congr hag hlo (by omega) _
  · exact guard_withKmem m p (fun _ => rfl) h
  · refine guard_withKmem m p (fun hc => ?_) h
    rw [State.withKmem_hash] at hc
    obtain ⟨hp, hr⟩ := not_or.1 hc
    obtain ⟨hlo, hstop⟩ := State.window_in_key hs (not_not.1 hp) (by decide)
    exact tailBody_congr hag hlo (by omega) _
  · refine guard_withKmem m p (fun hc => ?_) h
    rw [State.withKmem_hash] at hc
    obtain ⟨hp, -⟩ := not_or.1 hc
    obtain ⟨-, hstop⟩ := State.window_in_key hs (not_not.1 hp) (by decide)
    show finalBody _ s.secret s.hash = finalBody _ s.secret s.hash
    rw [finalBody, finalBody, finalAB_congr hag hstop]

end Sys2Proof.Machine
end

section
/-! PROOFS. The memory family (20_memory.md): what the host port's accesses to registers and to KMEM return and leave
unchanged, and what a step can do to the bytes of KMEM and to a command's inputs. -/

namespace Sys2Proof.Machine

/-! ### Little-endian reads -/

/-- Where the bytes read are consecutive bytes of `v`, their value is a bit field of `v`. -/
theorem leValue_of_bytes {bytes : Nat → Byte} {x j n : Nat} {v : Word}
    (h : ∀ k < n, bytes (x + k) = v.extractLsb' (8 * (j + k)) 8) :
    leValue bytes x n = v.toNat / 2 ^ (8 * j) % 2 ^ (8 * n) := by
  induction n with
  | zero => simp [leValue, Nat.mod_one]
  | succ n ih =>
    have hbyte : (bytes (x + n)).toNat = v.toNat / 2 ^ (8 * j) / 2 ^ (8 * n) % 2 ^ 8 := by
      rw [h n (by omega), BitVec.extractLsb'_toNat, Nat.shiftRight_eq_div_pow, Nat.div_div_eq_div_mul, ← pow_add,
        Nat.mul_add]
    rw [leValue, ih fun k hk => h k (by omega), hbyte, Nat.mul_succ, pow_add, Nat.mod_mul, Nat.mul_comm (2 ^ (8 * n))]

/-- A read of bytes that are consecutive bytes of `v` returns the bits of `v` they make up (20_memory.md R63). -/
theorem memRead_of_bytes {bytes : Nat → Byte} {x j n : Nat} {v : Word} (hn : n ≤ 8)
    (h : ∀ k < n, bytes (x + k) = v.extractLsb' (8 * (j + k)) 8) :
    memRead bytes x n = (v.extractLsb' (8 * j) (8 * n)).setWidth 64 := by
  apply BitVec.eq_of_toNat_eq
  have hlt : leValue bytes x n < 2 ^ 64 :=
    lt_of_lt_of_le (leValue_lt bytes x n) (Nat.pow_le_pow_right (by decide) (by omega))
  rw [leValue_of_bytes h] at hlt
  rw [memRead_toNat _ _ hn, leValue_of_bytes h, BitVec.toNat_setWidth, BitVec.extractLsb'_toNat,
    Nat.shiftRight_eq_div_pow, Nat.mod_eq_of_lt hlt]

theorem memRead_one (bytes : Nat → Byte) (x : Nat) : memRead bytes x 1 = (0 : BitVec 56) ++ bytes x := by
  apply BitVec.eq_of_toNat_eq
  rw [memRead_toNat _ _ (by decide), toNat_append_eq]
  simp [leValue]

theorem memRead_two (bytes : Nat → Byte) (x : Nat) :
    memRead bytes x 2 = (0 : BitVec 48) ++ bytes (x + 1) ++ bytes x := by
  apply BitVec.eq_of_toNat_eq
  rw [memRead_toNat _ _ (by decide)]
  simp only [toNat_append_eq, leValue, Nat.add_zero, BitVec.toNat_ofNat, BitVec.ofNat_eq_ofNat]
  ring

/-- `read3` byte by byte (41_readers.md R122). -/
theorem read3_eq (bytes : Nat → Byte) (x k : Nat) :
    read3 bytes x k = (0 : BitVec 40) ++ bytes x ++ bytes (x + k / 2) ++ bytes (x + k - 1) := by
  rw [← BitVec.setWidth_eq ((0 : BitVec 40) ++ bytes x ++ bytes (x + k / 2) ++ bytes (x + k - 1))]
  simp only [BitVec.setWidth_append_eq_shiftLeft_setWidth_or, BitVec.shiftLeft_or_distrib, ← BitVec.shiftLeft_add]
  simp [read3]

/-! ### What a host read returns -/

theorem Lane.pick_low (v : Word) : Lane.low.pick v = (0 : BitVec 32) ++ v.extractLsb' 0 32 :=
  BitVec.setWidth_eq_append (by decide)

theorem Lane.pick_high (v : Word) : Lane.high.pick v = (0 : BitVec 32) ++ v.extractLsb' 32 32 :=
  BitVec.setWidth_eq_append (by decide)

theorem State.busRead_low (s : State) (r : Reg) :
    s.busRead r.offset 4 = (if s.readDraws r then s.countDraw else s).answer (Lane.low.pick (s.readValue r)) := by
  rw [s.busRead_eq (lt_trans r.offset_lt (by decide)), State.hostRead, target_low]

theorem State.busRead_high (s : State) (r : Reg) :
    s.busRead (r.offset + 4) 4 = (if s.readDraws r then s.countDraw else s).answer (Lane.high.pick (s.readValue r)) := by
  have h := r.offset_lt
  rw [s.busRead_eq (by omega), State.hostRead, target_high]

theorem State.inFlight_eq_some {s : State} {i : Instr} (h : s.inFlight = some i) :
    ∃ w, s.cur = some w ∧ decode w = .ok i := by
  obtain ⟨w, hw, hd⟩ := Option.bind_eq_some_iff.1 h
  refine ⟨w, hw, ?_⟩
  unfold decode? at hd
  split at hd
  · next hk => exact hk.trans (congrArg _ (Option.some.inj hd))
  · cases hd

/-- A read outside the write set of the command in flight returns the register's value (20_memory.md R83). -/
theorem State.readValue_stable {s : State} {r : Reg}
    (h : ∀ i, s.inFlight = some i → r ∉ i.writes ∧ (r = .status → i.writesPhase = false)) :
    s.readValue r = s.regValue r := by
  unfold State.readValue State.unstable State.phaseUnstable
  cases hi : s.inFlight with
  | none => simp
  | some i =>
    obtain ⟨hw, hp⟩ := h i hi
    have hphase : ¬ (r = .status ∧ i.writesPhase = true) := fun ⟨hr, ht⟩ => by simp [hp hr] at ht
    simp [hw, hphase]

theorem kmemWidth_iff (n : Nat) : kmemWidth n = true ↔ n = 1 ∨ n = 2 ∨ n = 4 ∨ n = 8 := by
  simp [kmemWidth, or_assoc]

section
variable (s : State) {x n : Nat} (hn : kmemWidth n = true) (hx : x < s.params.kmemSize) (ha : x % n = 0)
include hn hx ha

theorem State.busRead_kmem : (s.busRead (0x10000 + x) n).hostData = memRead s.kmemByte x n := by
  have h := kmemSize_le s.params
  rw [s.busRead_eq (by omega), State.hostRead, target_kmem_of _ hn hx ha]
  rfl

theorem State.busWrite_kmem (hb : s.busy = false) (v : Word) : s.busWrite (0x10000 + x) n v = s.storeKmem x n v := by
  have h := kmemSize_le s.params
  rw [s.busWrite_eq (by omega), State.hostWrite, target_kmem_of _ hn hx ha]
  exact if_neg (ne_true_of_eq_false hb)

end

/-- Settles O39: a read is no write, so of the outcomes of a host access only the first is left. -/
theorem hostReadsHaveNoSideEffect : Obligations.HostReadsHaveNoSideEffect := by
  intro s addr n
  rcases s.hostAccess_cases (.read addr n) with ⟨k, v, hx⟩ | ⟨_, _, _, hw, -⟩
  · rw [hx]
  · cases hw

/-- Settles O40: outside the write set no read is a free value, and KMEM's bytes are in no write set. -/
theorem stableReadsReturnTheValue : Obligations.StableReadsReturnTheValue := by
  intro s
  refine ⟨fun r h => ?_, fun x hx => ?_, fun x hx ha => ?_, fun x hx ha => ?_, fun x hx ha => ?_⟩
  · have hv : s.readValue r = s.regValue r := State.readValue_stable fun i hi => by
      obtain ⟨w, hw, hd⟩ := State.inFlight_eq_some hi
      exact h w i hw hd
    rw [s.busRead_full, s.busRead_low, s.busRead_high, hv, ← Lane.pick_low, ← Lane.pick_high]
    exact ⟨rfl, rfl, rfl⟩
  · rw [s.busRead_kmem rfl hx (Nat.mod_one x), memRead_one]
  · rw [s.busRead_kmem rfl hx ha, memRead_two]
  · rw [s.busRead_kmem rfl hx ha]
    exact read4_eq _ _
  · rw [s.busRead_kmem rfl hx ha]
    exact read8_eq _ _

/-! ### Writes to KMEM -/

theorem State.kmemByte_storeKmem_inside (s : State) (x : Nat) {j n : Nat} (hj : j < n) (v : Word) :
    (s.storeKmem x n v).kmemByte (x + j) = v.extractLsb' (8 * j) 8 := by
  rw [s.kmemByte_storeKmem, if_pos ⟨by omega, by omega⟩, Nat.add_sub_cancel_left]

/-- Settles O45: an accepted access reaches `memRead` or, while idle, `storeKmem`. -/
theorem kmemAccessesMoveTheirBytes : Obligations.KmemAccessesMoveTheirBytes := by
  intro s x n v hn hx ha
  have hw := (kmemWidth_iff n).2 hn
  refine ⟨s.busRead_kmem hw hx ha, fun hb => ?_⟩
  rw [s.busWrite_kmem hw hx ha hb]
  refine ⟨fun j hj => s.kmemByte_storeKmem_inside x hj v, fun y hy => ?_, rfl⟩
  rw [s.kmemByte_storeKmem, if_neg (by omega)]

/-- Settles O46: each read takes bytes the write stored, and consecutive bytes of a value make up a bit field of it. -/
theorem kmemReadsSeeTheBytesWritten : Obligations.KmemReadsSeeTheBytesWritten := by
  intro s x v hb hx ha t
  have ht : t = s.storeKmem x 8 v := s.busWrite_kmem rfl hx ha hb v
  have hbyte : ∀ j < 8, t.kmemByte (x + j) = v.extractLsb' (8 * j) 8 := fun j hj => by
    rw [ht, s.kmemByte_storeKmem_inside x hj]
  have hread : ∀ j n, j + n ≤ 8 → memRead t.kmemByte (x + j) n = (v.extractLsb' (8 * j) (8 * n)).setWidth 64 :=
    fun j n hjn => memRead_of_bytes (by omega) fun k hk => by rw [Nat.add_assoc, hbyte _ (by omega)]
  have hwhole : memRead t.kmemByte x 8 = v := by
    simpa using hread 0 8 (by decide)
  have hsize : ∀ j < 8, x + j < t.params.kmemSize := fun j hj => by
    have h8 := eight_dvd_kmemSize s.params
    rw [ht, State.storeKmem_params]
    omega
  refine ⟨⟨?_, fun j hj => ?_, fun j hj h2 => ?_, fun j hj h4 => ?_⟩, hwhole, fun j hj => ?_, fun j k h1 h3 hk => ?_⟩
  · exact (t.busRead_kmem rfl (hsize 0 (by decide)) ha).trans hwhole
  · rw [t.busRead_kmem rfl (hsize j hj) (Nat.mod_one _), memRead_one, hbyte j hj]
  · rw [t.busRead_kmem rfl (hsize j hj) (by omega), hread j 2 (by omega)]
    exact BitVec.setWidth_eq_append (by decide)
  · rw [t.busRead_kmem rfl (hsize j hj) (by omega), hread j 4 (by omega)]
    exact BitVec.setWidth_eq_append (by decide)
  · rw [read4, hread j 4 hj]
    exact BitVec.setWidth_eq_append (by decide)
  · have hmid : x + j + k / 2 = x + (j + k / 2) := by omega
    have hlast : x + j + k - 1 = x + (j + k - 1) := by omega
    rw [read3_eq, hmid, hlast, hbyte j (by omega), hbyte (j + k / 2) (by omega), hbyte (j + k - 1) (by omega)]

/-! ### Accesses the block does not accept -/

theorem Reg.offset_not_reserved (r : Reg) : r.offset ≠ 0x038 ∧ r.offset ≠ 0x058 ∧ r.offset ≤ 0x0D0 := by
  cases r <;> decide

/-- What makes an access reach a register (20_memory.md R67, R69, R70). -/
theorem target_reg_accepted {p : Params} {o n : Nat} {r : Reg} {lane : Lane} (h : target p o n = .reg r lane) :
    (n = 8 ∧ o % 8 = 0 ∨ n = 4 ∧ o % 4 = 0) ∧ o / 8 * 8 ≠ 0x038 ∧ o / 8 * 8 ≠ 0x058 ∧ o < 0x0D8 := by
  have h8 := r.offset_mod
  obtain ⟨h38, h58, hd0⟩ := r.offset_not_reserved
  rcases target_reg h with ⟨-, rfl, rfl⟩ | ⟨-, rfl, rfl⟩ | ⟨-, rfl, rfl⟩ <;> omega

/-- What makes an access reach KMEM (20_memory.md R68, R70). -/
theorem target_kmem_accepted {p : Params} {o n i : Nat} (h : target p o n = .kmem i) :
    (n = 1 ∨ n = 2 ∨ n = 4 ∨ n = 8) ∧ o % n = 0 ∧ 0x10000 ≤ o ∧ o < 0x10000 + p.kmemSize := by
  unfold target at h
  split at h
  · exact absurd h (regTarget_ne_kmem _ _ _)
  · split at h
    · next hc =>
      obtain ⟨hlo, hhi, hn, ha⟩ := hc
      exact ⟨(kmemWidth_iff n).1 hn, ha, hlo, hhi⟩
    · cases h

/-- Settles O44: what makes an access reach a register or KMEM excludes each of the five clauses. -/
theorem unacceptedAccessesAreIgnored : Obligations.UnacceptedAccessesAreIgnored := by
  intro s o n v ho hcl
  have ht : target s.params o n = .nothing := by
    cases ht : target s.params o n with
    | nothing => rfl
    | reg r lane =>
      have h := target_reg_accepted ht
      omega
    | kmem i =>
      obtain ⟨hn, ha, hlo, hhi⟩ := target_kmem_accepted ht
      rcases hcl with ⟨hlt, -⟩ | ⟨hlt, -⟩ | ⟨-, hlt⟩ | ⟨-, -, hna⟩ | hge
      · omega
      · omega
      · omega
      · exact absurd ⟨hn, ha⟩ hna
      · omega
  rw [s.busWrite_eq ho, s.busRead_eq ho, State.hostWrite, State.hostRead, ht]
  exact ⟨rfl, rfl⟩

/-! ### Writes to input registers -/

theorem State.writeReg_input {s : State} {r : Reg} (hb : s.busy = false) (hr : r.isInput = true) (o : Nat)
    (lane : Lane) (v : Word) : s.writeReg o r lane v = s.setReg r (lane.put (s.regValue r) v) := by
  have h : s.writeReg o r lane v = s.writeInput o r lane v := by
    cases r with
    | off | a | b | n | s0 | s1 | s2 | s3 | seed | koff | len => rfl
    | _ => cases hr
  rw [h]
  exact if_neg (ne_true_of_eq_false hb)

/-- Settles O49: the three writes store to the register through the three lanes. -/
theorem inputRegisterWriteReplacesItsBits : Obligations.InputRegisterWriteReplacesItsBits := by
  intro s r q v x hb hr
  have hput : ∀ lane : Lane, (s.setReg r (lane.put (s.regValue r) v)).regValue r = lane.put (s.regValue r) v :=
    fun lane => by rw [s.regValue_setReg r r _ hr, if_pos rfl]
  rw [s.busWrite_full, s.busWrite_low, s.busWrite_high]
  simp only [State.writeReg_input hb hr]
  refine ⟨hput .full, hput .low, hput .high, fun t ht => ?_⟩
  obtain ⟨y, rfl⟩ : ∃ y, t = s.setReg r y := by
    rcases ht with rfl | rfl | rfl <;> exact ⟨_, rfl⟩
  exact ⟨fun hq => by rw [s.regValue_setReg r q _ hr, if_neg hq],
    State.kmemByte_congr (s.setReg_kmem r y) (s.setReg_powerOns r y) x, s.setReg_cur r y, s.setReg_hash r y,
    s.setReg_params r y⟩

/-! ### What a step can do to KMEM and to a command's inputs -/

/-- `engineTurn_cases`, read from the next state. -/
theorem engineTurn_next_cases {s t : State} (h : engineTurn s = .next t) :
    (s.cur = none ∧ t = s) ∨ (∃ e, e ≠ .busy ∧ t = (s.recordError e (s.curWord.setWidth 64)).complete) ∨
    (∃ u, Touched s u ∧ t = u.complete) := by
  rcases engineTurn_cases s with ⟨hc, hx⟩ | ⟨w, -, ⟨e, he, hx⟩ | ⟨i, -, hx⟩⟩
  · rw [hx] at h
    cases h
    exact .inl ⟨hc, rfl⟩
  · rw [hx] at h
    cases h
    exact .inr (.inl ⟨e, he, rfl⟩)
  · exact .inr (exec_next_cases (hx.symm.trans h))

/-- `t` holds KMEM as `s` does. -/
def State.SameKmem (s t : State) : Prop := t.kmem = s.kmem ∧ t.powerOns = s.powerOns

theorem State.SameKmem.kmemByte {s t : State} (h : s.SameKmem t) (x : Nat) : t.kmemByte x = s.kmemByte x :=
  State.kmemByte_congr h.1 h.2 x

theorem engineTurn_next_sameKmem {s t : State} (h : engineTurn s = .next t) : s.SameKmem t := by
  rcases engineTurn_next_cases h with ⟨-, rfl⟩ | ⟨e, -, rfl⟩ | ⟨u, hu, rfl⟩
  · exact ⟨rfl, rfl⟩
  · exact ⟨rfl, rfl⟩
  · rw [hu]
    exact ⟨rfl, rfl⟩

theorem State.writeCtrl_sameKmem (s : State) (v : Word) : s.SameKmem (s.writeCtrl v) := by
  unfold State.writeCtrl
  split <;> exact ⟨rfl, rfl⟩

/-- A host access keeps KMEM, or is a write while no command is in flight. -/
theorem State.hostAccess_sameKmem (s : State) (acc : Access) :
    s.SameKmem (s.hostAccess acc) ∨ (s.busy = false ∧ ∃ addr n v, acc = .write addr n v) := by
  rcases s.hostAccess_cases acc with ⟨k, v, hx⟩ | ⟨addr, n, v, rfl, hw⟩
  · rw [hx]
    exact .inl ⟨rfl, rfl⟩
  rcases hw with ⟨-, -, hx⟩ | ⟨-, -, hx⟩ | ⟨-, o, -, -, hx⟩ | ⟨hb, -⟩ | ⟨hb, -⟩ | ⟨hb, -⟩
  · exact .inl (hx ▸ s.writeCtrl_sameKmem v)
  · exact .inl (hx ▸ ⟨rfl, rfl⟩)
  · exact .inl (hx ▸ ⟨rfl, rfl⟩)
  all_goals exact .inr ⟨hb, addr, n, v, rfl⟩

/-- Settles O37: of the three kinds of step only an idle host write and a power-on do not keep KMEM. -/
theorem keyMemoryChangesOnlyByIdleHostWrites : Obligations.KeyMemoryChangesOnlyByIdleHostWrites := by
  intro s t x h hne
  have hkeep : ¬ s.taken.SameKmem t := fun hk => hne (hk.kmemByte x)
  rcases step_cases s with ⟨-, hx⟩ | ⟨acc, turns, hag, hx⟩ | ⟨turns, hag, -⟩
  · exact absurd (engineTurn_next_sameKmem (hx.symm.trans h)) hkeep
  · rw [hx] at h
    cases h
    rcases s.taken.hostAccess_sameKmem acc with hk | ⟨hb, addr, n, v, rfl⟩
    · exact absurd hk hkeep
    · exact .inr ⟨hb, addr, n, v, turns, hag⟩
  · exact .inl ⟨turns, hag⟩

/-- `t` is `s` but for the interrupt enables, STATUS's own bits, ERRINFO and the model's bookkeeping: what may change
while a command stays in flight (20_memory.md R78). -/
def State.SameInputs (s t : State) : Prop :=
  t = { s with
    ieDone := t.ieDone
    ieErr := t.ieErr
    done := t.done
    err := t.err
    errcode := t.errcode
    errinfo := t.errinfo
    draws := t.draws
    agenda := t.agenda
    hostData := t.hostData }

theorem State.SameInputs.sameKmem {s t : State} (h : s.SameInputs t) : s.SameKmem t := by
  rw [h]
  exact ⟨rfl, rfl⟩

theorem State.SameInputs.regValue {s t : State} (h : s.SameInputs t) {r : Reg} (hr : r.isInput = true) :
    t.regValue r = s.regValue r := by
  rw [h]
  cases r with
  | off | a | b | n | s0 | s1 | s2 | s3 | seed | koff | len => rfl
  | _ => cases hr

/-- The ENGINE's turn ends the command in flight (44_system.md R181). -/
theorem engineTurn_next_busy {s t : State} (hs : s.busy = true) (h : engineTurn s = .next t) : t.busy = false := by
  rcases engineTurn_next_cases h with ⟨hc, -⟩ | ⟨e, -, rfl⟩ | ⟨u, -, rfl⟩
  · simp [State.busy, hc] at hs
  · rfl
  · rfl

/-- A host access made while a command is in flight abandons it or keeps its inputs. -/
theorem State.hostAccess_sameInputs {s : State} (hs : s.busy = true) (acc : Access)
    (ht : (s.hostAccess acc).busy = true) : s.SameInputs (s.hostAccess acc) := by
  rcases s.hostAccess_cases acc with ⟨k, v, hx⟩ | ⟨addr, n, v, -, hw⟩
  · rw [hx]
    rfl
  rcases hw with ⟨-, -, hx⟩ | ⟨-, -, hx⟩ | ⟨-, o, -, -, hx⟩ | ⟨hb, -⟩ | ⟨hb, -⟩ | ⟨hb, -⟩
  · rw [hx, State.writeCtrl] at ht ⊢
    split at ht
    · cases ht
    · next hv =>
      rw [if_neg hv]
      rfl
  · rw [hx]
    rfl
  · rw [hx]
    rfl
  all_goals exact absurd hs (ne_true_of_eq_false hb)

/-- Settles O53: the engine's turn and a reset end the command, and every other step keeps its inputs. -/
theorem inputsAreStableWhileBusy : Obligations.InputsAreStableWhileBusy := by
  intro s t h hs ht
  have hsame : s.taken.SameInputs t := by
    rcases step_cases s with ⟨-, hx⟩ | ⟨acc, turns, -, hx⟩ | ⟨turns, -, hx⟩
    · exact absurd ht (ne_true_of_eq_false (engineTurn_next_busy (s := s.taken) hs (hx.symm.trans h)))
    · rw [hx] at h
      cases h
      exact State.hostAccess_sameInputs (s := s.taken) hs acc ht
    · rw [hx] at h
      cases h
      cases ht
  have hcur : t.cur = s.cur := by
    rw [hsame]
    rfl
  have hhash : t.hash = s.hash := by
    rw [hsame]
    rfl
  exact ⟨hcur, fun r hr => hsame.regValue hr, hsame.sameKmem.kmemByte, hhash⟩

end Sys2Proof.Machine
end

section
/-! PROOFS. The encoding family (30_encoding.md): decoder and encoder are inverse to each other, the words the decoder
rejects, and the write sets of the commands as the frame of `exec`. -/

namespace Sys2Proof

/-! ### The opcode map, arm by arm -/

/-- The commands with no field beside OPC (30_encoding.md R92). -/
def plainCommands : List Instr :=
  [.nop, .mum, .mix, .hinit, .hchunk, .hfold, .htail, .hfinal, .hash, .mulmod, .powmod, .prime]

/-- The 15 values of OPC that have a meaning (30_encoding.md R92). -/
def opcodes : List (BitVec 8) :=
  [0x00, 0x01, 0x02, 0x10, 0x11, 0x12, 0x20, 0x21, 0x22, 0x23, 0x24, 0x2F, 0x30, 0x31, 0x32]

/-- The values of OPC that have a DST field: RD8, RD4 and RD3 (30_encoding.md R94). -/
def readerOpcodes : List (BitVec 8) := [0x10, 0x11, 0x12]

theorem opcodes_perm : opcodes.Perm (plainCommands.map (fun i => fieldOpc i.opc) ++ readerOpcodes) := by decide

theorem decodeFields_plain {i : Instr} (hi : i ∈ plainCommands) (dst : Bool) (k : BitVec 2) :
    decodeFields (fieldOpc i.opc) dst k = decodePlain i dst k := by
  fin_cases hi <;> rfl

theorem decodeFields_unknown {opc : BitVec 8} (h : opc ∉ opcodes) (dst : Bool) (k : BitVec 2) :
    decodeFields opc dst k = .error .opcode := by
  simp only [opcodes, List.mem_cons, List.not_mem_nil, or_false, not_or] at h
  simp only [decodeFields, h, if_false]

/-- The arms of the opcode map: a command without fields, RD8 or RD4, RD3, or no command (30_encoding.md R92). -/
theorem decodeFields_cases (opc : BitVec 8) (dst : Bool) (k : BitVec 2) :
    (∃ i ∈ plainCommands, opc = fieldOpc i.opc ∧ decodeFields opc dst k = decodePlain i dst k) ∨
    (opc = 0x10 ∧ decodeFields opc dst k = decodeReader .rd8 dst k) ∨
    (opc = 0x11 ∧ decodeFields opc dst k = decodeReader .rd4 dst k) ∨
    (opc = 0x12 ∧ decodeFields opc dst k = decodeRd3 dst k) ∨
    (opc ∉ opcodes ∧ decodeFields opc dst k = .error .opcode) := by
  by_cases h : opc ∈ opcodes
  · rcases List.mem_append.1 (opcodes_perm.subset h) with hp | hr
    · obtain ⟨i, hi, rfl⟩ := List.mem_map.1 hp
      exact .inl ⟨i, hi, rfl, decodeFields_plain hi dst k⟩
    · simp only [readerOpcodes, List.mem_cons, List.not_mem_nil, or_false] at hr
      rcases hr with rfl | rfl | rfl
      · exact .inr (.inl ⟨rfl, rfl⟩)
      · exact .inr (.inr (.inl ⟨rfl, rfl⟩))
      · exact .inr (.inr (.inr (.inl ⟨rfl, rfl⟩)))
  · exact .inr (.inr (.inr (.inr ⟨h, decodeFields_unknown h dst k⟩)))

/-! ### What each kind of command accepts and rejects -/

theorem decodePlain_eq_ok_iff {i j : Instr} {dst : Bool} {k : BitVec 2} :
    decodePlain i dst k = .ok j ↔ dst = false ∧ k = 0 ∧ i = j := by
  unfold decodePlain
  split_ifs <;> simp_all

theorem decodeReader_eq_ok_iff {mk : Dst → Instr} {j : Instr} {dst : Bool} {k : BitVec 2} :
    decodeReader mk dst k = .ok j ↔ k = 0 ∧ mk (dstOfBit dst) = j := by
  unfold decodeReader
  split_ifs <;> simp_all

theorem decodeRd3_eq_ok_iff {j : Instr} {dst : Bool} {k : BitVec 2} :
    decodeRd3 dst k = .ok j ↔ k ≠ 0 ∧ .rd3 (dstOfBit dst) k = j := by
  unfold decodeRd3
  split_ifs <;> simp_all

theorem decode_eq_ok_iff {w : CmdWord} {i : Instr} :
    decode w = .ok i ↔ fieldRsv w = 0 ∧ decodeFields (fieldOpc w) (fieldDst w) (fieldK w) = .ok i := by
  unfold decode
  split_ifs <;> simp_all

/-- A decoder's answer is an error exactly where it is no command. -/
theorem exists_error_iff {x : Except Reject Instr} : (∃ e, x = .error e) ↔ ¬ ∃ i, x = .ok i := by
  cases x <;> simp

/-! ### Encoding and decoding are inverse -/

/-- Settles O1: only RD8, RD4 and RD3 have operands, whose fields take finitely many values. -/
theorem encodeThenDecodeReturnsTheCommand : Obligations.EncodeThenDecodeReturnsTheCommand := by
  intro i hi
  cases i with
  | rd8 d | rd4 d => cases d <;> rfl
  | rd3 d k =>
    revert k
    cases d <;> decide
  | _ => rfl

/-- A command without fields is well-formed, and its word is its opcode with every other field 0. -/
theorem encode_plain {i : Instr} (hi : i ∈ plainCommands) :
    i.wellFormed = true ∧ encode i = (0 : BitVec 21) ++ (0 : BitVec 2) ++ BitVec.ofBool false ++ fieldOpc i.opc := by
  revert i
  decide

theorem encode_rd3 (dst : Bool) (k : BitVec 2) :
    encode (.rd3 (dstOfBit dst) k) = (0 : BitVec 21) ++ k ++ BitVec.ofBool dst ++ (0x12 : BitVec 8) := by
  revert dst k
  decide

/-- A command that the opcode map gives for three fields is well-formed, and its word is made of these fields. -/
theorem encode_of_decodeFields {opc : BitVec 8} {dst : Bool} {k : BitVec 2} {i : Instr}
    (h : decodeFields opc dst k = .ok i) :
    i.wellFormed = true ∧ encode i = (0 : BitVec 21) ++ k ++ BitVec.ofBool dst ++ opc := by
  rcases decodeFields_cases opc dst k with ⟨j, hj, rfl, hx⟩ | ⟨rfl, hx⟩ | ⟨rfl, hx⟩ | ⟨rfl, hx⟩ | ⟨-, hx⟩ <;>
    rw [hx] at h
  · obtain ⟨rfl, rfl, rfl⟩ := decodePlain_eq_ok_iff.1 h
    exact encode_plain hj
  · obtain ⟨rfl, rfl⟩ := decodeReader_eq_ok_iff.1 h
    cases dst <;> exact ⟨rfl, rfl⟩
  · obtain ⟨rfl, rfl⟩ := decodeReader_eq_ok_iff.1 h
    cases dst <;> exact ⟨rfl, rfl⟩
  · obtain ⟨hk, rfl⟩ := decodeRd3_eq_ok_iff.1 h
    exact ⟨bne_iff_ne.2 hk, encode_rd3 dst k⟩
  · cases h

/-- Settles O2: the word is its four fields, of which RSV is 0 and the others make up the command's word. -/
theorem decodedWordIsTheCommandsOwnWord : Obligations.DecodedWordIsTheCommandsOwnWord := by
  intro w i h
  obtain ⟨hrsv, hf⟩ := decode_eq_ok_iff.1 h
  obtain ⟨hwf, henc⟩ := encode_of_decodeFields hf
  rw [← hrsv, ← word_eq_fields w] at henc
  exact ⟨hwf, henc⟩

/-! ### The words the decoder rejects -/

theorem opcode_plain {i : Instr} (hi : i ∈ plainCommands) :
    fieldOpc i.opc ∈ opcodes ∧ fieldOpc i.opc ∉ readerOpcodes ∧ fieldOpc i.opc ≠ 0x12#8 := by
  revert i
  decide

/-- Points 1, 3, 4 and 5 of 30_encoding.md R97 are what the opcode map rejects. -/
theorem decodeFields_rejects_iff (opc : BitVec 8) (dst : Bool) (k : BitVec 2) :
    (∃ e, decodeFields opc dst k = .error e) ↔
      opc ∉ opcodes ∨ (dst = true ∧ opc ∉ readerOpcodes) ∨ (k ≠ 0 ∧ opc ≠ 0x12) ∨ (k = 0 ∧ opc = 0x12) := by
  rw [exists_error_iff]
  rcases decodeFields_cases opc dst k with ⟨j, hj, rfl, hx⟩ | ⟨rfl, hx⟩ | ⟨rfl, hx⟩ | ⟨rfl, hx⟩ | ⟨ho, hx⟩ <;>
    rw [hx]
  · obtain ⟨ho, hreader, hrd3⟩ := opcode_plain hj
    cases dst <;> simp [decodePlain_eq_ok_iff, ho, hreader, hrd3]
  · simp [decodeReader_eq_ok_iff, opcodes, readerOpcodes]
  · simp [decodeReader_eq_ok_iff, opcodes, readerOpcodes]
  · simp [decodeRd3_eq_ok_iff, opcodes, readerOpcodes]
  · simp [ho]

/-- A word is rejected for its RSV field or by the opcode map (30_encoding.md R97). -/
theorem decode_rejects_iff (w : CmdWord) :
    (∃ e, decode w = .error e) ↔
      fieldRsv w ≠ 0 ∨ ∃ e, decodeFields (fieldOpc w) (fieldDst w) (fieldK w) = .error e := by
  simp only [exists_error_iff, decode_eq_ok_iff, exists_and_left, not_and_or, ne_eq]

/-- Settles O3: point 2 of 30_encoding.md R97 is the check of RSV, the others are the opcode map's. -/
theorem wordIllegalExactlyByTheFiveCauses : Obligations.WordIllegalExactlyByTheFiveCauses := by
  intro w
  calc (∃ e, decode w = .error e)
    _ ↔ fieldRsv w ≠ 0 ∨ ∃ e, decodeFields (fieldOpc w) (fieldDst w) (fieldK w) = .error e := decode_rejects_iff w
    _ ↔ fieldRsv w ≠ 0 ∨ _ := or_congr_right (decodeFields_rejects_iff _ _ _)
    _ ↔ _ := or_left_comm

/-- Settles O4: each word of the table is the encoding of its command. -/
theorem legalWordTableDecodes : Obligations.LegalWordTableDecodes := by
  have h := encodeThenDecodeReturnsTheCommand
  exact ⟨h .nop rfl, h .mum rfl, h .mix rfl, h (.rd8 .a) rfl, h (.rd8 .b) rfl, h (.rd4 .a) rfl, h (.rd4 .b) rfl,
    h (.rd3 .a 1) rfl, h (.rd3 .a 2) rfl, h (.rd3 .a 3) rfl, h (.rd3 .b 1) rfl, h (.rd3 .b 2) rfl, h (.rd3 .b 3) rfl,
    h .hinit rfl, h .hchunk rfl, h .hfold rfl, h .htail rfl, h .hfinal rfl, h .hash rfl, h .mulmod rfl, h .powmod rfl,
    h .prime rfl⟩

end Sys2Proof

namespace Sys2Proof.Machine

/-! ### The write set as the frame of a command -/

/-- `s` with what a completion of `i` may change taken from `t`: the write set of `i` (30_encoding.md R93), the error
record, DONE and CUR (44_system.md R181). -/
def State.overwrite (s : State) (i : Instr) (t : State) : State :=
  { s with
    done := t.done
    err := t.err
    errcode := t.errcode
    errinfo := t.errinfo
    cur := t.cur
    a := if .a ∈ i.writes then t.a else s.a
    b := if .b ∈ i.writes then t.b else s.b
    hash :=
      { h := if .h ∈ i.writes then t.hash.h else s.hash.h
        acc0 := if .acc0 ∈ i.writes then t.hash.acc0 else s.hash.acc0
        acc1 := if .acc1 ∈ i.writes then t.hash.acc1 else s.hash.acc1
        acc2 := if .acc2 ∈ i.writes then t.hash.acc2 else s.hash.acc2
        ptr := if .ptr ∈ i.writes then t.hash.ptr else s.hash.ptr
        rem := if .rem ∈ i.writes then t.hash.rem else s.hash.rem
        hbase := if .hbase ∈ i.writes then t.hash.hbase else s.hash.hbase
        hlen := if .hlen ∈ i.writes then t.hash.hlen else s.hash.hlen
        phase := if i.writesPhase then t.hash.phase else s.hash.phase } }

/-- `t` is `s` but for what a completion of `i` may change. -/
def WritesOnly (i : Instr) (s t : State) : Prop := t = s.overwrite i t

/-- A command fault writes no register of any write set (60_exceptions.md R196). -/
theorem writesOnly_fault (i : Instr) (s : State) (e : ErrCode) (info : Word) :
    WritesOnly i s (s.recordError e info).complete := by
  simp [WritesOnly, State.overwrite, State.complete, State.recordError]

/-- A command guarded by one condition writes only what its commit writes. -/
theorem guard_writesOnly {i : Instr} {c : Prop} [Decidable c] {e : ErrCode} {s u t : State}
    (hu : WritesOnly i s u.complete) (h : (if c then takeFault e s else commit u) = .next t) : WritesOnly i s t := by
  rcases guard_next h with ⟨-, rfl⟩ | ⟨-, rfl⟩
  · exact writesOnly_fault i s e _
  · exact hu

theorem readInto_writesOnly {i : Instr} {d : Dst} (hi : i.writes = [dstReg d]) (hp : i.writesPhase = false)
    {width : Nat} {v : Word} {s t : State} (h : readInto d width v s = .next t) : WritesOnly i s t := by
  refine guard_writesOnly ?_ h
  unfold WritesOnly State.overwrite
  rw [hi, hp]
  cases d <;> rfl

/-- The frame of every command, as one equation (30_encoding.md R93). -/
theorem exec_writesOnly {i : Instr} {s t : State} (h : exec i s = .next t) : WritesOnly i s t := by
  cases i with
  | nop | mum | mix | prime =>
    cases h
    rfl
  | rd8 d => exact readInto_writesOnly rfl rfl h
  | rd4 d => exact readInto_writesOnly rfl rfl h
  | rd3 d k =>
    by_cases hk : k = 0
    · rw [show exec (.rd3 d k) s = takeFault .illegal s from if_pos hk] at h
      cases h
      exact writesOnly_fault _ s .illegal _
    · exact readInto_writesOnly rfl rfl ((if_neg hk).symm.trans h)
  | hinit | hchunk | hfold | htail | hfinal | hash | mulmod | powmod => exact guard_writesOnly (by rfl) h

theorem WritesOnly.regValue {i : Instr} {s t : State} (h : WritesOnly i s t) {r : Reg} (hr : r ∉ i.writes)
    (hs : r ≠ .status) (he : r ≠ .errinfo) : t.regValue r = s.regValue r := by
  rw [h]
  cases r with
  | a | b | h | acc0 | acc1 | acc2 | ptr | rem | hbase | hlen => exact if_neg hr
  | status => exact absurd rfl hs
  | errinfo => exact absurd rfl he
  | _ => rfl

theorem WritesOnly.phase {i : Instr} {s t : State} (h : WritesOnly i s t) (hp : i.writesPhase = false) :
    t.hash.phase = s.hash.phase := by
  rw [h]
  exact if_neg (ne_true_of_eq_false hp)

theorem WritesOnly.sameKmem {i : Instr} {s t : State} (h : WritesOnly i s t) : s.SameKmem t := by
  rw [h]
  exact ⟨rfl, rfl⟩

/-- The enables, the parameters and the model's own fields are in no write set. -/
theorem WritesOnly.rest {i : Instr} {s t : State} (h : WritesOnly i s t) :
    t.ieDone = s.ieDone ∧ t.ieErr = s.ieErr ∧ t.params = s.params ∧ t.agenda = s.agenda ∧ t.draws = s.draws ∧
      t.hostData = s.hostData := by
  rw [h]
  exact ⟨rfl, rfl, rfl, rfl, rfl, rfl⟩

/-- Settles O36: every clause is a part of the frame equation `exec_writesOnly`. -/
theorem commandsTouchOnlyTheirWriteSet : Obligations.CommandsTouchOnlyTheirWriteSet := by
  intro i s t h
  have hw := exec_writesOnly h
  exact ⟨fun _ => hw.regValue, hw.phase, hw.sameKmem.kmemByte, hw.rest⟩

end Sys2Proof.Machine
end

section
/-! PROOFS. The multiply-mix family (40_mulmix.md): the two halves of the product as numbers, the laws of `mum` and
`mix`, and the commands MUM and MIX. -/

namespace Sys2Proof.Machine

/-! ### The product of two words -/

/-- The largest product is the square of the largest word, (2^64 - 1)^2 = (2^64 - 2) * 2^64 + 1. -/
theorem toNat_mul_toNat_le (a b : Word) : a.toNat * b.toNat ≤ (2 ^ 64 - 2) * 2 ^ 64 + 1 :=
  calc a.toNat * b.toNat
    _ ≤ (2 ^ 64 - 1) * (2 ^ 64 - 1) := Nat.mul_le_mul (Nat.le_pred_of_lt a.isLt) (Nat.le_pred_of_lt b.isLt)
    _ = (2 ^ 64 - 2) * 2 ^ 64 + 1 := by norm_num

theorem toNat_mul_toNat_div_le (a b : Word) : a.toNat * b.toNat / 2 ^ 64 ≤ 2 ^ 64 - 2 := by
  have hmax := toNat_mul_toNat_le a b
  omega

/-! ### The two halves -/

@[simp] theorem mum_fst_toNat (a b : Word) : (mum a b).1.toNat = a.toNat * b.toNat % 2 ^ 64 := BitVec.toNat_ofNat _ _

@[simp] theorem mum_snd_toNat (a b : Word) : (mum a b).2.toNat = a.toNat * b.toNat / 2 ^ 64 := by
  have hhigh := toNat_mul_toNat_div_le a b
  exact (BitVec.toNat_ofNat _ _).trans (Nat.mod_eq_of_lt (by omega))

/-- The low half is the wrapping product. -/
theorem mum_fst (a b : Word) : (mum a b).1 = a * b :=
  BitVec.eq_of_toNat_eq ((mum_fst_toNat a b).trans (BitVec.toNat_mul a b).symm)

/-- The halves as words of the exact product, the form MUM and MIX leave in A and B. -/
theorem mum_eq (a b : Word) :
    mum a b = (BitVec.ofNat 64 (a.toNat * b.toNat % 2 ^ 64), BitVec.ofNat 64 (a.toNat * b.toNat / 2 ^ 64)) := by
  simp only [← mum_fst_toNat, ← mum_snd_toNat, BitVec.ofNat_toNat, BitVec.setWidth_eq]

/-- The high half above the low half is the product, by division with remainder. -/
theorem mum_pair_toNat (a b : Word) : ((mum a b).2 ++ (mum a b).1).toNat = a.toNat * b.toNat := by
  rw [BitVec.toNat_append, ← Nat.shiftLeft_add_eq_or_of_lt (mum a b).1.isLt, Nat.shiftLeft_eq, mum_snd_toNat,
    mum_fst_toNat, Nat.div_add_mod']

theorem mum_comm (a b : Word) : mum a b = mum b a := by
  rw [mum, Nat.mul_comm]
  rfl

theorem mum_pair_ne_allOnes (a b : Word) : (mum a b).2 ++ (mum a b).1 ≠ BitVec.allOnes 128 := by
  intro h
  have hpair : a.toNat * b.toNat = 2 ^ 128 - 1 := by rw [← mum_pair_toNat, h, BitVec.toNat_allOnes]
  have hmax := toNat_mul_toNat_le a b
  omega

theorem mix_comm (a b : Word) : mix a b = mix b a := by rw [mix, mum_comm, mix]

@[simp] theorem mix_zero (a : Word) : mix a 0 = 0 := by simp [mix, mum]

/-! ### The laws and the two commands -/

/-- Settles O13: each half as a number, and the pair from the two. -/
theorem productHalvesAreExact : Obligations.ProductHalvesAreExact := fun a b =>
  ⟨mum_fst_toNat a b, mum_snd_toNat a b, mum_pair_toNat a b, mum_comm a b⟩

/-- Settles O15: the bounds come from the largest product, the rest from the halves. -/
theorem multiplyMixLaws : Obligations.MultiplyMixLaws := by
  intro a b
  have hmax := toNat_mul_toNat_le a b
  have hhigh : (mum a b).2.toNat ≤ 2 ^ 64 - 2 := (mum_snd_toNat a b).le.trans (toNat_mul_toNat_div_le a b)
  exact ⟨by omega, mum_fst a b, mum_snd_toNat a b, hhigh, mum_pair_ne_allOnes a b, mix_comm a b, mix_zero a⟩

theorem exec_mum (s : State) : exec .mum s = .next (s.setAB (mum s.a s.b).1 (mum s.a s.b).2).complete := rfl

theorem exec_mix (s : State) : exec .mix s = .next (s.setA ((mum s.a s.b).1 ^^^ (mum s.a s.b).2)).complete := rfl

/-- Settles O12: MUM commits both halves, computed from the old A and B. -/
theorem mumWritesBothHalvesOfTheProduct : Obligations.MumWritesBothHalvesOfTheProduct := by
  intro s
  rw [exec_mum, mum_eq]
  rfl

/-- Settles O14: MIX commits the exclusive or of the halves and leaves B. -/
theorem mixFoldsTheProduct : Obligations.MixFoldsTheProduct := by
  intro s
  rw [exec_mix, mum_eq]
  rfl

end Sys2Proof.Machine
end

section
/-! PROOFS. The byte-window reader family (41_readers.md): what RD8, RD4 and RD3 commit where the bytes they read lie in
KMEM. The values themselves are `read8_eq`, `read4_eq` and `read3_eq`. -/

namespace Sys2Proof.Machine

/-- A reader whose bytes lie in KMEM commits its value to the destination alone (41_readers.md R123 to R125). -/
theorem readInto_inside {d : Dst} {width : Nat} {s : State} (h : s.off.toNat + width ≤ s.params.kmemSize) (v : Word) :
    readInto d width v s = .next { s with
      cur := none
      done := true
      a := if d = .a then v else s.a
      b := if d = .b then v else s.b } := by
  rw [readInto, if_neg (Nat.not_lt.2 h), commit_eq, State.setDst_eq]
  rfl

theorem exec_rd8 (d : Dst) (s : State) : exec (.rd8 d) s = readInto d 8 (read8 s.kmemByte s.off.toNat) s := rfl

theorem exec_rd4 (d : Dst) (s : State) : exec (.rd4 d) s = readInto d 4 (read4 s.kmemByte s.off.toNat) s := rfl

theorem exec_rd3 (d : Dst) {k : BitVec 2} (hk : k ≠ 0) (s : State) :
    exec (.rd3 d k) s = readInto d k.toNat (read3 s.kmemByte s.off.toNat k.toNat) s := if_neg hk

/-- The three legal lengths of `read3`, with its middle and last byte named (41_readers.md R122): both are byte 0 at
`k = 1`, and the middle one is byte 1 at `k = 2` and `k = 3`. -/
theorem read3_byLength (bytes : Nat → Byte) (x : Nat) {k : BitVec 2} (hk : k ≠ 0) :
    read3 bytes x k.toNat = (0 : BitVec 40) ++ bytes x ++
      (if k = 1 then bytes x else bytes (x + 1)) ++
      (if k = 1 then bytes x else if k = 2 then bytes (x + 1) else bytes (x + 2)) := by
  rw [read3_eq]
  have hlegal : k = 1 ∨ k = 2 ∨ k = 3 := by
    revert k
    decide
  rcases hlegal with rfl | rfl | rfl <;> rfl

/-- Settles O16: RD8 commits `read8`, taken byte by byte. -/
theorem rd8ReadsEightBytes : Obligations.Rd8ReadsEightBytes := by
  intro s d h
  rw [exec_rd8, readInto_inside h, read8_eq]

/-- Settles O17: RD4 commits `read4`, taken byte by byte. -/
theorem rd4ReadsFourBytes : Obligations.Rd4ReadsFourBytes := by
  intro s d h
  rw [exec_rd4, readInto_inside h, read4_eq]

/-- Settles O18: RD3 commits `read3`, with its bytes named by the length. -/
theorem rd3PacksItsBytes : Obligations.Rd3PacksItsBytes := by
  intro s d k hk h
  rw [exec_rd3 d hk, readInto_inside h, read3_byLength _ _ hk]

end Sys2Proof.Machine
end

section
/-! PROOFS. The hash family (42_hash.md): what each command commits, HASH as its step commands run one after another,
and the digest HASH writes as the reference hash of the key bytes. -/

namespace Sys2Proof.Machine

/-! ### What each hash command commits -/

/-- The state a hash command leaves when it commits the hash unit `u` (44_system.md R181). -/
def State.commitHash (s : State) (u : HashUnit) : State := (s.setHash u).complete

section
variable {s : State}

theorem State.not_keyOutside (h : s.koff.toNat + s.len.toNat ≤ s.params.kmemSize) : ¬ s.keyOutside = true := by
  simpa [State.keyOutside] using h

theorem exec_hinit (h : s.koff.toNat + s.len.toNat ≤ s.params.kmemSize) :
    exec .hinit s = .next (s.commitHash (initBody s.secret s.seed s.koff s.len s.hash)) :=
  if_neg (State.not_keyOutside h)

theorem exec_hash (h : s.koff.toNat + s.len.toNat ≤ s.params.kmemSize) :
    exec .hash s = .next (s.commitHash (hashBody s.kmemByte s.secret s.seed s.koff s.len s.hash)) :=
  if_neg (State.not_keyOutside h)

theorem exec_hchunk (hp : s.hash.phase = .chunk) (hr : 48 ≤ s.hash.rem.toNat) :
    exec .hchunk s = .next (s.commitHash (chunkBody s.kmemByte s.secret s.hash)) :=
  if_neg (not_or.2 ⟨not_not.2 hp, not_lt.2 hr⟩)

theorem exec_hfold (hp : s.hash.phase = .chunk) (hr : s.hash.rem.toNat < 48) :
    exec .hfold s = .next (s.commitHash (foldBody s.hash)) :=
  if_neg (not_or.2 ⟨not_not.2 hp, not_le.2 hr⟩)

theorem exec_htail (hp : s.hash.phase = .tail) (hr : 16 < s.hash.rem.toNat) :
    exec .htail s = .next (s.commitHash (tailBody s.kmemByte s.secret s.hash)) :=
  if_neg (not_or.2 ⟨not_not.2 hp, not_le.2 hr⟩)

theorem exec_hfinal (hp : s.hash.phase = .tail) (hr : s.hash.rem.toNat ≤ 16) :
    exec .hfinal s = .next (s.commitHash (finalBody s.kmemByte s.secret s.hash)) :=
  if_neg (not_or.2 ⟨not_not.2 hp, not_lt.2 hr⟩)

end

/-- Settles O20: the committed unit is the body of HINIT. -/
theorem hinitSeedsTheAccumulators : Obligations.HinitSeedsTheAccumulators := fun _ h => exec_hinit h

/-- Settles O21: the committed unit is the body of HCHUNK. -/
theorem hchunkMixesFortyEightBytes : Obligations.HchunkMixesFortyEightBytes := fun _ hp hr => exec_hchunk hp hr

/-- Settles O22: the committed unit is the body of HFOLD. -/
theorem hfoldFoldsTheAccumulators : Obligations.HfoldFoldsTheAccumulators := fun _ hp hr => exec_hfold hp hr

/-- Settles O23: the committed unit is the body of HTAIL. -/
theorem htailMixesSixteenBytes : Obligations.HtailMixesSixteenBytes := fun _ hp hr => exec_htail hp hr

/-- Settles O24: the committed unit is the body of HFINAL, its digest the finalisation of `finalAB`. -/
theorem hfinalWritesTheDigest : Obligations.HfinalWritesTheDigest := fun _ hp hr => exec_hfinal hp hr

/-! ### The final operands by key length -/

section
variable (bytes : Nat → Byte) {u : HashUnit}

theorem finalAB_of_long (h : 16 < u.hlen.toNat) :
    finalAB bytes u =
      (read8 bytes (u.ptr.toNat + u.rem.toNat - 16), read8 bytes (u.ptr.toNat + u.rem.toNat - 8)) := if_pos h

theorem finalAB_of_middle (h4 : 4 ≤ u.hlen.toNat) (h16 : u.hlen.toNat ≤ 16) {sh : Nat}
    (hsh : sh = u.hlen.toNat / 8 * 4) :
    finalAB bytes u =
      ((read4 bytes u.hbase.toNat <<< 32) ||| read4 bytes (u.hbase.toNat + sh),
        (read4 bytes (u.hbase.toNat + u.hlen.toNat - 4) <<< 32) |||
          read4 bytes (u.hbase.toNat + u.hlen.toNat - 4 - sh)) := by
  subst hsh
  exact (if_neg (not_lt.2 h16)).trans (if_pos h4)

theorem finalAB_of_short (h1 : 1 ≤ u.hlen.toNat) (h3 : u.hlen.toNat ≤ 3) :
    finalAB bytes u = (read3 bytes u.hbase.toNat u.hlen.toNat, 0) :=
  (if_neg (by omega)).trans ((if_neg (by omega)).trans (if_pos h1))

theorem finalAB_of_empty (h : u.hlen.toNat = 0) : finalAB bytes u = (0, 0) :=
  (if_neg (by omega)).trans ((if_neg (by omega)).trans (if_neg (by omega)))

end

/-- `(len >> 3) << 2` of a middle length, by its three values (42_hash.md R134). -/
theorem middleShift_eq {len : Nat} (h16 : len ≤ 16) :
    (if len < 8 then 0 else if len < 16 then 4 else 8) = len / 8 * 4 := by
  split_ifs <;> omega

/-- Settles O25: one clause for each range of lengths. -/
theorem finalOperandsByKeyLength : Obligations.FinalOperandsByKeyLength := fun bytes _ =>
  ⟨finalAB_of_long bytes, fun h4 h16 => finalAB_of_middle bytes h4 h16 (middleShift_eq h16), finalAB_of_short bytes,
    finalAB_of_empty bytes⟩

/-- Settles O26: the rest of the key ends where the key ends. -/
theorem longKeyOperandsAreItsLastSixteenBytes : Obligations.LongKeyOperandsAreItsLastSixteenBytes := by
  intro s hs hp hlen
  obtain ⟨-, hstop⟩ := State.window_in_key hs hp (by decide)
  rw [finalAB_of_long _ hlen, hstop]

/-! ### The loops of HASH and of the reference as one kind of loop -/

/-- `while guard: body`, at most `fuel` passes. -/
def whileLoop {α : Type} (guard : α → Prop) [DecidablePred guard] (body : α → α) : (fuel : Nat) → α → α
  | 0, x => x
  | fuel + 1, x => if guard x then whileLoop guard body fuel (body x) else x

theorem chunkLoop_eq_whileLoop (bytes : Nat → Byte) (sec : Secret) (fuel : Nat) (u : HashUnit) :
    chunkLoop bytes sec fuel u = whileLoop (fun v => 48 ≤ v.rem.toNat) (chunkBody bytes sec) fuel u := by
  induction fuel generalizing u with
  | zero => rfl
  | succ fuel ih => rw [chunkLoop, whileLoop, ih]

theorem tailLoop_eq_whileLoop (bytes : Nat → Byte) (sec : Secret) (fuel : Nat) (u : HashUnit) :
    tailLoop bytes sec fuel u = whileLoop (fun v => 16 < v.rem.toNat) (tailBody bytes sec) fuel u := by
  induction fuel generalizing u with
  | zero => rfl
  | succ fuel ih => rw [tailLoop, whileLoop, ih]

/-- One pass of the reference's 48-byte loop (42_hash.md R138). -/
def RefState.chunk (key : List Byte) (sec : Secret) (r : RefState) : RefState :=
  { p := r.p + 48
    i := r.i - 48
    seed := mix (read8 (keyByte key) r.p ^^^ sec.s1) (read8 (keyByte key) (r.p + 8) ^^^ r.seed)
    see1 := mix (read8 (keyByte key) (r.p + 16) ^^^ sec.s2) (read8 (keyByte key) (r.p + 24) ^^^ r.see1)
    see2 := mix (read8 (keyByte key) (r.p + 32) ^^^ sec.s3) (read8 (keyByte key) (r.p + 40) ^^^ r.see2) }

/-- One pass of the reference's 16-byte loop (42_hash.md R138). -/
def RefState.tail (key : List Byte) (sec : Secret) (r : RefState) : RefState :=
  { r with
    p := r.p + 16
    i := r.i - 16
    seed := mix (read8 (keyByte key) r.p ^^^ sec.s1) (read8 (keyByte key) (r.p + 8) ^^^ r.seed) }

theorem refChunks_eq_whileLoop (key : List Byte) (sec : Secret) (fuel : Nat) (r : RefState) :
    refChunks key sec fuel r = whileLoop (fun q => 48 ≤ q.i) (RefState.chunk key sec) fuel r := by
  induction fuel generalizing r with
  | zero => rfl
  | succ fuel ih =>
    rw [refChunks, whileLoop, ih]
    rfl

theorem refTail_eq_whileLoop (key : List Byte) (sec : Secret) (fuel : Nat) (r : RefState) :
    refTail key sec fuel r = whileLoop (fun q => 16 < q.i) (RefState.tail key sec) fuel r := by
  induction fuel generalizing r with
  | zero => rfl
  | succ fuel ih =>
    rw [refTail, whileLoop, ih]
    rfl

theorem whileLoop_of_not {α : Type} {guard : α → Prop} [DecidablePred guard] {body : α → α} {x : α}
    (h : ¬ guard x) (fuel : Nat) : whileLoop guard body fuel x = x := by
  cases fuel with
  | zero => rfl
  | succ fuel => exact if_neg h

/-- Two loops run in lockstep: a relation that decides both guards alike and that every pass keeps holds at the end. -/
theorem whileLoop_rel {α β : Type} {rel : α → β → Prop} {g : α → Prop} {g' : β → Prop} [DecidablePred g]
    [DecidablePred g'] {f : α → α} {f' : β → β} (hguard : ∀ {x y}, rel x y → (g x ↔ g' y))
    (hbody : ∀ {x y}, rel x y → g' y → rel (f x) (f' y)) (fuel : Nat) {x : α} {y : β} (h : rel x y) :
    rel (whileLoop g f fuel x) (whileLoop g' f' fuel y) := by
  induction fuel generalizing x y with
  | zero => exact h
  | succ fuel ih =>
    by_cases hy : g' y
    · rw [whileLoop, whileLoop, if_pos hy, if_pos ((hguard h).2 hy)]
      exact ih (hbody h hy)
    · rw [whileLoop_of_not hy, whileLoop_of_not (mt (hguard h).1 hy)]
      exact h

/-! ### A loop as the same command run once for each pass -/

theorem execAll_cons {i : Instr} {s t : State} (h : exec i s = .next t) (rest : List Instr) :
    execAll (i :: rest) s = execAll rest t := by
  rw [execAll, h]

/-- Where the command `i` is one pass of a loop on the hash unit, `passes u` of them run the loop from `u` to its end.
The loop's invariant holds there and its guard does not. -/
theorem execAll_passes {s : State} {i : Instr} {inv guard : HashUnit → Prop} [DecidablePred guard]
    {body : HashUnit → HashUnit} {passes : HashUnit → Nat}
    (hexec : ∀ {v}, inv v → guard v → exec i (s.commitHash v) = .next (s.commitHash (body v)))
    (hinv : ∀ {v}, inv v → guard v → inv (body v))
    (hpass : ∀ {v}, guard v → passes v = passes (body v) + 1) (hexit : ∀ {v}, ¬ guard v → passes v = 0)
    {fuel : Nat} {u : HashUnit} (hu : inv u) (hfuel : passes u ≤ fuel) :
    (∀ rest, execAll (List.replicate (passes u) i ++ rest) (s.commitHash u) =
      execAll rest (s.commitHash (whileLoop guard body fuel u))) ∧
    inv (whileLoop guard body fuel u) ∧ ¬ guard (whileLoop guard body fuel u) := by
  induction fuel generalizing u with
  | zero =>
    have hg : ¬ guard u := fun hg => absurd (hpass hg) (by omega)
    exact ⟨fun rest => by rw [hexit hg]; rfl, hu, hg⟩
  | succ fuel ih =>
    by_cases hg : guard u
    · have hp := hpass hg
      obtain ⟨hrun, hend⟩ := ih (hinv hu hg) (by omega)
      rw [whileLoop, if_pos hg, hp]
      exact ⟨fun rest => (execAll_cons (hexec hu hg) _).trans (hrun rest), hend⟩
    · rw [whileLoop_of_not hg, hexit hg]
      exact ⟨fun _ => rfl, hu, hg⟩

/-- HCHUNK once for each 48 bytes of the rest is HASH's chunk loop. It ends with the rest modulo 48. -/
theorem execAll_hchunks (s : State) {u : HashUnit} {n fuel : Nat} (hp : u.phase = .chunk) (hn : u.rem.toNat / 48 = n)
    (hfuel : n ≤ fuel) :
    (∀ rest, execAll (List.replicate n .hchunk ++ rest) (s.commitHash u) =
      execAll rest (s.commitHash (chunkLoop s.kmemByte s.secret fuel u))) ∧
    (chunkLoop s.kmemByte s.secret fuel u).phase = .chunk ∧
    (chunkLoop s.kmemByte s.secret fuel u).rem.toNat = u.rem.toNat % 48 := by
  subst hn
  have hrem : ∀ {v : HashUnit}, 48 ≤ v.rem.toNat →
      (chunkBody s.kmemByte s.secret v).rem.toNat = v.rem.toNat - 48 := fun h => BitVec.toNat_sub_of_le h
  obtain ⟨hrun, ⟨hphase, hmod⟩, hend⟩ := execAll_passes (s := s) (i := .hchunk)
    (inv := fun v => v.phase = .chunk ∧ v.rem.toNat % 48 = u.rem.toNat % 48)
    (guard := fun v => 48 ≤ v.rem.toNat) (body := chunkBody s.kmemByte s.secret) (passes := fun v => v.rem.toNat / 48)
    (fun hv hg => exec_hchunk hv.1 hg) (fun hv hg => ⟨hv.1, by rw [hrem hg]; omega⟩)
    (fun hg => by simp only [hrem hg]; omega) (fun hg => by omega) ⟨hp, rfl⟩ hfuel
  rw [chunkLoop_eq_whileLoop]
  exact ⟨hrun, hphase, by omega⟩

/-- HTAIL once for each 16 bytes begun above the last 16 is HASH's tail loop. -/
theorem execAll_htails (s : State) {u : HashUnit} {n fuel : Nat} (hp : u.phase = .tail)
    (hn : (u.rem.toNat - 1) / 16 = n) (hfuel : n ≤ fuel) :
    (∀ rest, execAll (List.replicate n .htail ++ rest) (s.commitHash u) =
      execAll rest (s.commitHash (tailLoop s.kmemByte s.secret fuel u))) ∧
    (tailLoop s.kmemByte s.secret fuel u).phase = .tail ∧
    (tailLoop s.kmemByte s.secret fuel u).rem.toNat ≤ 16 := by
  subst hn
  have hrem : ∀ {v : HashUnit}, 16 < v.rem.toNat →
      (tailBody s.kmemByte s.secret v).rem.toNat = v.rem.toNat - 16 := fun h => BitVec.toNat_sub_of_le h.le
  obtain ⟨hrun, hphase, hend⟩ := execAll_passes (s := s) (i := .htail) (inv := fun v => v.phase = .tail)
    (guard := fun v => 16 < v.rem.toNat) (body := tailBody s.kmemByte s.secret)
    (passes := fun v => (v.rem.toNat - 1) / 16) (fun hv hg => exec_htail hv hg) (fun hv _ => hv)
    (fun hg => by simp only [hrem hg]; omega) (fun hg => by omega) hp hfuel
  rw [tailLoop_eq_whileLoop]
  exact ⟨hrun, hphase, not_lt.1 hend⟩

/-- A key of at most 16 bytes has no 48-byte chunk either, so its case in R139 needs no mention. -/
theorem chunkCount_eq (len : Nat) : chunkCount len = len / 48 := by
  unfold chunkCount
  split_ifs <;> omega

theorem tailCount_eq (len : Nat) : tailCount len = (len % 48 - 1) / 16 := by
  unfold tailCount
  rw [chunkCount_eq]
  dsimp only
  split_ifs <;> omega

/-- The step sequence, its loops counted by division and its parts in order. -/
theorem stepSequence_eq (len : Nat) :
    stepSequence len = .hinit :: (List.replicate (len / 48) .hchunk ++
      .hfold :: (List.replicate ((len % 48 - 1) / 16) .htail ++ [.hfinal])) := by
  simp [stepSequence, chunkCount_eq, tailCount_eq]

/-- Settles O29: HINIT, each loop as its command repeated, HFOLD and HFINAL are the parts of HASH's body in order. -/
theorem stepSequenceEqualsHash : Obligations.StepSequenceEqualsHash := by
  intro s hkey
  obtain ⟨hchunks, hchunk, hmod⟩ := execAll_hchunks s (u := initBody s.secret s.seed s.koff s.len s.hash)
    (n := s.len.toNat / 48) (fuel := s.len.toNat) rfl rfl (by omega)
  obtain ⟨htails, htail, hrem⟩ := execAll_htails s (u := foldBody (chunkLoop s.kmemByte s.secret s.len.toNat _))
    (n := (s.len.toNat % 48 - 1) / 16) (fuel := s.len.toNat) rfl (congrArg (fun r => (r - 1) / 16) hmod) (by omega)
  rw [stepSequence_eq]
  -- Each link runs one part of the sequence; committing twice in a row is, by unfolding, committing the second unit.
  exact (execAll_cons (exec_hinit hkey) _).trans <| (hchunks _).trans <|
    (execAll_cons (exec_hfold hchunk (hmod.trans_lt (Nat.mod_lt _ (by decide)))) _).trans <| (htails _).trans <|
    (execAll_cons (exec_hfinal htail hrem) _).trans (exec_hash hkey).symm

/-! ### The key as a byte sequence -/

@[simp] theorem State.keyBytes_length (s : State) : s.keyBytes.length = s.len.toNat := by simp [State.keyBytes]

theorem State.keyByte_keyBytes (s : State) {i : Nat} (h : i < s.len.toNat) :
    keyByte s.keyBytes i = s.kmemByte (s.koff.toNat + i) := by simp [keyByte, State.keyBytes, h]

theorem memRead_offset (bytes : Nat → Byte) (q x n : Nat) :
    memRead bytes (q + x) n = memRead (fun i => bytes (q + i)) x n := by
  induction n with
  | zero => rfl
  | succ n ih => rw [memRead, memRead, ih, Nat.add_assoc]

section
variable (s : State) {x : Nat}

/-- A read inside the key is the read of the key's bytes as a sequence, KOFF lower. -/
theorem State.memRead_key {n : Nat} (h : x + n ≤ s.len.toNat) :
    memRead s.kmemByte (s.koff.toNat + x) n = memRead (keyByte s.keyBytes) x n := by
  rw [memRead_offset]
  exact memRead_congr (lo := 0) (hi := s.len.toNat) (fun i hi => (s.keyByte_keyBytes hi.2).symm) (Nat.zero_le x) h

theorem State.read8_key (h : x + 8 ≤ s.len.toNat) :
    read8 s.kmemByte (s.koff.toNat + x) = read8 (keyByte s.keyBytes) x :=
  s.memRead_key h

theorem State.read4_key (h : x + 4 ≤ s.len.toNat) :
    read4 s.kmemByte (s.koff.toNat + x) = read4 (keyByte s.keyBytes) x :=
  s.memRead_key h

theorem State.read3_key (h : 0 < s.len.toNat) :
    read3 s.kmemByte s.koff.toNat s.len.toNat = read3 (keyByte s.keyBytes) 0 s.len.toNat := by
  rw [read3, read3, s.keyByte_keyBytes h, s.keyByte_keyBytes (i := 0 + s.len.toNat / 2) (by omega),
    s.keyByte_keyBytes (i := 0 + s.len.toNat - 1) (by omega)]
  simp only [Nat.zero_add, Nat.add_zero, Nat.add_sub_assoc (Nat.succ_le_of_lt h)]

/-- The final operands of a latched key of at most 16 bytes are the reference's. -/
theorem State.finalAB_eq_refShort {u : HashUnit} (hbase : u.hbase = s.koff) (hlen : u.hlen = s.len)
    (h16 : s.len.toNat ≤ 16) : finalAB s.kmemByte u = refShort s.keyBytes := by
  unfold finalAB refShort
  rw [hbase, hlen, s.keyBytes_length]
  dsimp only
  rw [if_neg (not_lt.2 h16)]
  split_ifs with h4 h0
  · have hfirst : read4 s.kmemByte s.koff.toNat = read4 (keyByte s.keyBytes) 0 :=
      s.read4_key (x := 0) (by omega)
    rw [Nat.add_sub_assoc h4, Nat.add_sub_assoc (show s.len.toNat / 8 * 4 ≤ s.len.toNat - 4 by omega), hfirst,
      s.read4_key (by omega), s.read4_key (by omega), s.read4_key (by omega)]
  · rw [s.read3_key h0]
  · rfl

end

/-! ### The reference hash, by its states -/

/-- The reference's state before its loops: the seed mixed with the Secret, three times (42_hash.md R138). -/
def RefState.start (seed : Word) (sec : Secret) (len : Nat) : RefState :=
  { p := 0
    i := len
    seed := seed ^^^ mix (seed ^^^ sec.s0) sec.s1
    see1 := seed ^^^ mix (seed ^^^ sec.s0) sec.s1
    see2 := seed ^^^ mix (seed ^^^ sec.s0) sec.s1 }

/-- The fold between the two loops (42_hash.md R138). -/
def RefState.fold (r : RefState) : RefState := { r with seed := r.seed ^^^ r.see1 ^^^ r.see2 }

/-- The reference's state after both loops. -/
def refEnd (key : List Byte) (seed : Word) (sec : Secret) : RefState :=
  refTail key sec key.length (refChunks key sec key.length (RefState.start seed sec key.length)).fold

theorem wyhash_of_long {key : List Byte} (h : 16 < key.length) (seed : Word) (sec : Secret) :
    wyhash key seed sec = finalize sec (refEnd key seed sec).seed (BitVec.ofNat 64 key.length)
      (read8 (keyByte key) ((refEnd key seed sec).p + (refEnd key seed sec).i - 16),
        read8 (keyByte key) ((refEnd key seed sec).p + (refEnd key seed sec).i - 8)) :=
  if_neg (not_le.2 h)

theorem refChunks_of_lt {r : RefState} (h : r.i < 48) (key : List Byte) (sec : Secret) (fuel : Nat) :
    refChunks key sec fuel r = r := by
  cases fuel with
  | zero => rfl
  | succ fuel => exact if_neg (not_le.2 h)

theorem refTail_of_le {r : RefState} (h : r.i ≤ 16) (key : List Byte) (sec : Secret) (fuel : Nat) :
    refTail key sec fuel r = r := by
  cases fuel with
  | zero => rfl
  | succ fuel => exact if_neg (not_lt.2 h)

/-- A short key takes no pass of either loop, and the fold of three equal words is that word. -/
theorem refEnd_seed_of_short {key : List Byte} (h : key.length ≤ 16) (seed : Word) (sec : Secret) :
    (refEnd key seed sec).seed = seed ^^^ mix (seed ^^^ sec.s0) sec.s1 := by
  have hchunks := refChunks_of_lt (r := RefState.start seed sec key.length) (h.trans_lt (by decide)) key sec key.length
  have htail := refTail_of_le (r := (RefState.start seed sec key.length).fold) h key sec key.length
  rw [refEnd, hchunks, htail]
  simp [RefState.fold, RefState.start]

theorem wyhash_of_short {key : List Byte} (h : key.length ≤ 16) (seed : Word) (sec : Secret) :
    wyhash key seed sec = finalize sec (refEnd key seed sec).seed (BitVec.ofNat 64 key.length) (refShort key) := by
  rw [refEnd_seed_of_short h]
  exact if_pos h

/-! ### HASH in lockstep with the reference -/

/-- The hash unit `u` stands where the reference stands in `r`, on the key of `s`: the window KOFF higher, the three
accumulators equal, the key latched. -/
structure State.Tracks (s : State) (u : HashUnit) (r : RefState) : Prop where
  ptr   : u.ptr.toNat = s.koff.toNat + r.p
  rem   : u.rem.toNat = r.i
  stop  : r.p + r.i = s.len.toNat
  acc0  : u.acc0 = r.seed
  acc1  : u.acc1 = r.see1
  acc2  : u.acc2 = r.see2
  hbase : u.hbase = s.koff
  hlen  : u.hlen = s.len

theorem State.tracks_start (s : State) (u : HashUnit) :
    s.Tracks (initBody s.secret s.seed s.koff s.len u) (RefState.start s.seed s.secret s.len.toNat) :=
  ⟨rfl, rfl, Nat.zero_add _, rfl, rfl, rfl, rfl, rfl⟩

section
variable {s : State} {u : HashUnit} {r : RefState}

theorem State.Tracks.fold (h : s.Tracks u r) : s.Tracks (foldBody u) r.fold where
  ptr := h.ptr
  rem := h.rem
  stop := h.stop
  acc0 := by rw [foldBody, RefState.fold, h.acc0, h.acc1, h.acc2]
  acc1 := h.acc1
  acc2 := h.acc2
  hbase := h.hbase
  hlen := h.hlen

/-- A read `k` bytes into the window is the reference's. -/
theorem State.Tracks.read8_eq (h : s.Tracks u r) {k : Nat} (hk : k + 8 ≤ r.i) :
    read8 s.kmemByte (u.ptr.toNat + k) = read8 (keyByte s.keyBytes) (r.p + k) := by
  have hstop := h.stop
  rw [h.ptr, Nat.add_assoc]
  exact s.read8_key (by omega)

/-- An accumulator mixed with 16 bytes of the window is the reference's. -/
theorem State.Tracks.mix_eq (h : s.Tracks u r) {k : Nat} (hk : k + 16 ≤ r.i) (c : Word) {acc see : Word}
    (hacc : acc = see) :
    mix (read8 s.kmemByte (u.ptr.toNat + k) ^^^ c) (read8 s.kmemByte (u.ptr.toNat + (k + 8)) ^^^ acc) =
      mix (read8 (keyByte s.keyBytes) (r.p + k) ^^^ c) (read8 (keyByte s.keyBytes) (r.p + (k + 8)) ^^^ see) := by
  rw [h.read8_eq (by omega), h.read8_eq (by omega), hacc]

section
variable (hkey : s.koff.toNat + s.len.toNat ≤ s.params.kmemSize)
include hkey

/-- The window of the unit and of the reference, `n` bytes on: inside KMEM nothing wraps. -/
theorem State.Tracks.advance (h : s.Tracks u r) {n : Word} (hn : n.toNat ≤ r.i) :
    (u.ptr + n).toNat = s.koff.toNat + (r.p + n.toNat) ∧ (u.rem - n).toNat = r.i - n.toNat ∧
      (r.p + n.toNat) + (r.i - n.toNat) = s.len.toNat := by
  have hptr := h.ptr
  have hrem := h.rem
  have hstop := h.stop
  obtain ⟨hsum, hrest⟩ := window_advance (n := n) (p := u.ptr) (r := u.rem)
    (stop := s.koff.toNat + s.len.toNat) (by omega) hkey (kmemSize_le s.params) (by omega)
  omega

theorem State.Tracks.chunk (h : s.Tracks u r) (hi : 48 ≤ r.i) :
    s.Tracks (chunkBody s.kmemByte s.secret u) (r.chunk s.keyBytes s.secret) := by
  obtain ⟨hptr, hrem, hstop⟩ := h.advance hkey (n := 48) hi
  exact ⟨hptr, hrem, hstop, h.mix_eq (k := 0) (by omega) _ h.acc0, h.mix_eq (k := 16) (by omega) _ h.acc1,
    h.mix_eq (k := 32) (by omega) _ h.acc2, h.hbase, h.hlen⟩

theorem State.Tracks.tail (h : s.Tracks u r) (hi : 16 < r.i) :
    s.Tracks (tailBody s.kmemByte s.secret u) (r.tail s.keyBytes s.secret) := by
  obtain ⟨hptr, hrem, hstop⟩ := h.advance hkey (n := 16) hi.le
  exact ⟨hptr, hrem, hstop, h.mix_eq (k := 0) (by omega) _ h.acc0, h.acc1, h.acc2, h.hbase, h.hlen⟩

theorem State.Tracks.chunks (h : s.Tracks u r) (fuel : Nat) :
    s.Tracks (chunkLoop s.kmemByte s.secret fuel u) (refChunks s.keyBytes s.secret fuel r) := by
  rw [chunkLoop_eq_whileLoop, refChunks_eq_whileLoop]
  exact whileLoop_rel (fun hxy => by rw [hxy.rem]) (fun hxy hi => hxy.chunk hkey hi) fuel h

theorem State.Tracks.tails (h : s.Tracks u r) (fuel : Nat) :
    s.Tracks (tailLoop s.kmemByte s.secret fuel u) (refTail s.keyBytes s.secret fuel r) := by
  rw [tailLoop_eq_whileLoop, refTail_eq_whileLoop]
  exact whileLoop_rel (fun hxy => by rw [hxy.rem]) (fun hxy hi => hxy.tail hkey hi) fuel h

end

/-- A unit that stands where the reference ends finalises to the reference's digest: the last 16 bytes of a long key,
the whole of a short one. -/
theorem State.Tracks.digest (h : s.Tracks u (refEnd s.keyBytes s.seed s.secret)) :
    finalize s.secret u.acc0 u.hlen (finalAB s.kmemByte u) = wyhash s.keyBytes s.seed s.secret := by
  have hlen : BitVec.ofNat 64 s.keyBytes.length = s.len := by simp
  by_cases h16 : s.len.toNat ≤ 16
  · rw [wyhash_of_short (by simpa using h16), hlen, h.acc0, h.hlen, s.finalAB_eq_refShort h.hbase h.hlen h16]
  · have hend : u.ptr.toNat + u.rem.toNat = s.koff.toNat + s.len.toNat := by rw [h.ptr, h.rem, Nat.add_assoc, h.stop]
    rw [wyhash_of_long (by simpa using h16), hlen, h.acc0, finalAB_of_long _ (h.hlen ▸ not_le.1 h16), h.hlen, h.stop,
      hend, Nat.add_sub_assoc (by omega), Nat.add_sub_assoc (by omega), s.read8_key (by omega), s.read8_key (by omega)]

end

/-- Settles O28: HASH's unit before HFINAL stands where the reference ends, loop by loop. -/
theorem hashWritesTheReferenceDigest : Obligations.HashWritesTheReferenceDigest := by
  intro s hkey
  have hend : s.Tracks (tailLoop s.kmemByte s.secret s.len.toNat (foldBody (chunkLoop s.kmemByte s.secret s.len.toNat
      (initBody s.secret s.seed s.koff s.len s.hash)))) (refEnd s.keyBytes s.seed s.secret) := by
    rw [refEnd, s.keyBytes_length]
    exact ((s.tracks_start s.hash).chunks hkey _).fold.tails hkey _
  exact ⟨_, exec_hash hkey, hend.digest, rfl, hend.hbase, hend.hlen⟩

end Sys2Proof.Machine
end

section
/-! PROOFS. The modular arithmetic and primality family (43_prime.md): `powMod` as the power of the natural numbers, the
test of PRIME as the strong test over the bases whose square does not exceed N, and what that test answers for a prime
and for a number with a small factor. -/

namespace Sys2Proof.Machine

/-! ### The exact modular operations -/

/-- The loop multiplies `acc` by `x ^ e`: a pass moves one factor `x` out of `x ^ e = (x * x) ^ (e / 2) * x ^ (e % 2)`. -/
theorem powLoop_eq (n : Nat) {fuel e : Nat} (he : e < 2 ^ fuel) (x acc : Nat) :
    powLoop n fuel x e (acc % n) = acc * x ^ e % n := by
  induction fuel generalizing x e acc with
  | zero =>
    obtain rfl : e = 0 := Nat.lt_one_iff.1 he
    rw [pow_zero, mul_one]
    rfl
  | succ fuel ih =>
    have hsplit : x ^ e = (x * x) ^ (e / 2) * x ^ (e % 2) := by rw [← sq, ← pow_mul, ← pow_add, Nat.div_add_mod]
    have hpass : ∀ acc, powLoop n fuel (mulMod x x n) (e / 2) (acc % n) = acc * (x * x) ^ (e / 2) % n := by
      intro acc
      rw [ih (by omega), mulMod, Nat.mul_mod, ← Nat.pow_mod, ← Nat.mul_mod]
    rw [powLoop, hsplit]
    rcases Nat.mod_two_eq_zero_or_one e with heven | hodd
    · rw [if_neg (by omega), hpass, heven, pow_zero, mul_one]
    · have hacc : mulMod (acc % n) x n = acc * x % n := Nat.mod_mul_mod _ _ _
      rw [if_pos hodd, hacc, hpass, hodd, pow_one, mul_right_comm, mul_assoc]

theorem powMod_eq (x n : Nat) {e : Nat} (he : e < 2 ^ 64) : powMod x e n = x ^ e % n := by
  rw [powMod, powLoop_eq n he, one_mul, ← Nat.pow_mod]

/-! ### The strong test to one base -/

/-- `n`, with `n - 1 = d * 2 ^ z`, is a strong probable prime to the base `base` (43_prime.md R163). -/
def StrongProbablePrime (n d z base : Nat) : Prop :=
  base ^ d % n = 1 ∨ ∃ r, r < z ∧ base ^ (d * 2 ^ r) % n = n - 1

theorem pow_two_pow_succ_mod (x n r : Nat) : x ^ 2 ^ (r + 1) % n = mulMod x x n ^ 2 ^ r % n := by
  rw [mulMod, ← Nat.pow_mod, ← sq, ← pow_mul, ← pow_succ']

/-- Stopping at 0 or 1 loses nothing: their powers are themselves, and `n - 1` is neither. -/
theorem squaresReach_iff {n : Nat} (hn : 3 ≤ n) (passes x : Nat) :
    squaresReach n passes x = true ↔ ∃ r, r < passes ∧ x ^ 2 ^ (r + 1) % n = n - 1 := by
  induction passes generalizing x with
  | zero => simp [squaresReach]
  | succ passes ih =>
    have hfirst : (∃ r, r < passes + 1 ∧ x ^ 2 ^ (r + 1) % n = n - 1) ↔
        mulMod x x n = n - 1 ∨ ∃ r, r < passes ∧ mulMod x x n ^ 2 ^ (r + 1) % n = n - 1 := by
      simp only [pow_two_pow_succ_mod x, Nat.exists_lt_succ_left, pow_zero, pow_one, mulMod, Nat.mod_mod]
    rw [hfirst, squaresReach]
    by_cases hlast : mulMod x x n = n - 1
    · simp [hlast]
    by_cases hstop : mulMod x x n = 0 ∨ mulMod x x n = 1
    · have hfixed : ∀ r, mulMod x x n ^ 2 ^ (r + 1) % n = mulMod x x n := by
        intro r
        rcases hstop with h | h
        · rw [h, zero_pow (by positivity), Nat.zero_mod]
        · rw [h, one_pow, Nat.mod_eq_of_lt (by omega)]
      simp [hlast, hstop, hfixed]
    · simp [hlast, hstop, ih]

/-- `passesBase` tests `r = 0` by itself and the other `r < z` in its loop. -/
theorem passesBase_iff {n d z : Nat} (hn : 3 ≤ n) (hd : d < 2 ^ 64) (hz : 0 < z) (base : Nat) :
    passesBase n d z base = true ↔ StrongProbablePrime n d z base := by
  obtain ⟨k, rfl⟩ := Nat.exists_eq_succ_of_ne_zero hz.ne'
  have hpow : ∀ r, (base ^ d % n) ^ 2 ^ r % n = base ^ (d * 2 ^ r) % n := by
    intro r
    rw [← Nat.pow_mod, pow_mul]
  rw [StrongProbablePrime, Nat.exists_lt_succ_left, pow_zero, mul_one, ← or_assoc, passesBase, powMod_eq _ _ hd]
  by_cases hnow : base ^ d % n = 1 ∨ base ^ d % n = n - 1
  · simp [hnow]
  · simp [hnow, squaresReach_iff hn, hpow]

/-! ### The test over the bases -/

/-- The shortcut skips the bases whose square exceeds `n`, since the bases rise. -/
theorem passesBases_iff (n d z : Nat) {bases : List Nat} (hrise : bases.Pairwise (· < ·)) :
    passesBases n d z bases = true ↔ ∀ base ∈ bases, base * base ≤ n → passesBase n d z base = true := by
  induction bases with
  | nil => simp [passesBases]
  | cons base rest ih =>
    obtain ⟨hless, hrest⟩ := List.pairwise_cons.1 hrise
    rw [passesBases, List.forall_mem_cons, ← ih hrest]
    by_cases hcut : n < base * base
    · have hskip : passesBases n d z rest = true :=
        (ih hrest).2 fun b hb hle => absurd (Nat.mul_self_lt_mul_self (hless b hb)) (by omega)
      simp [hcut, hskip]
    · simp [hcut, not_lt.1 hcut]

theorem trailingZeros_eq {d : Nat} (hd : d % 2 = 1) {fuel z : Nat} (hz : z ≤ fuel) :
    trailingZeros fuel (d * 2 ^ z) = z := by
  induction z generalizing fuel with
  | zero => cases fuel <;> simp [trailingZeros, hd]
  | succ z ih =>
    obtain ⟨fuel, rfl⟩ := Nat.exists_eq_add_of_le' (Nat.one_le_of_lt hz)
    have hdouble : d * 2 ^ (z + 1) = d * 2 ^ z * 2 := by rw [pow_succ, mul_assoc]
    rw [hdouble, trailingZeros, if_pos (Nat.mul_mod_left _ _), Nat.mul_div_cancel _ two_pos, ih (by omega)]

theorem two_le_of_mem_witnessBases {base : Nat} : base ∈ witnessBases → 2 ≤ base :=
  (show ∀ base ∈ witnessBases, 2 ≤ base by decide) base

theorem sprp64_of_lt_two {n : Nat} (h : n < 2) : sprp64 n = false := if_pos h

theorem sprp64_of_even {n : Nat} (h : 2 < n) (heven : n % 2 = 0) : sprp64 n = false := by
  rw [sprp64, if_neg (by omega), if_neg (by omega), if_pos heven]

/-- `trailingZeros` and the shift take `n - 1` apart, as a nonzero 64-bit number has fewer than 64 trailing zeros. -/
theorem sprp64_eq_passesBases {n d z : Nat} (hn : 3 < n) (h64 : n < 2 ^ 64) (hfactor : n - 1 = d * 2 ^ z)
    (hd : d % 2 = 1) (hodd : n % 2 = 1) : sprp64 n = passesBases n d z witnessBases := by
  have hpow : 2 ^ z ≤ n - 1 := hfactor ▸ Nat.le_mul_of_pos_left _ (by omega)
  have hz : z < 64 := (Nat.pow_lt_pow_iff_right (by decide)).1 (show 2 ^ z < 2 ^ 64 by omega)
  have hzeros : trailingZeros 64 (n - 1) = z := hfactor ▸ trailingZeros_eq hd hz.le
  have hquot : (n - 1) / 2 ^ z = d := by rw [hfactor, Nat.mul_div_cancel _ (by positivity)]
  rw [sprp64, if_neg (by omega), if_neg (by omega), if_neg (by omega)]
  simp only [hzeros, hquot]

/-- The verdict on an odd number: the strong test to every base whose square does not exceed it (43_prime.md R163). -/
theorem sprp64_iff {n d z : Nat} (hn : 3 ≤ n) (h64 : n < 2 ^ 64) (hfactor : n - 1 = d * 2 ^ z) (hd : d % 2 = 1)
    (hodd : n % 2 = 1) :
    sprp64 n = true ↔ ∀ base ∈ witnessBases, base * base ≤ n → StrongProbablePrime n d z base := by
  rcases hn.eq_or_lt with rfl | hlt
  · refine iff_of_true rfl fun base hmem hle => ?_
    have hfour := Nat.mul_self_le_mul_self (two_le_of_mem_witnessBases hmem)
    omega
  have hdle : d ≤ n - 1 := hfactor ▸ Nat.le_mul_of_pos_right d (by positivity)
  have hz : 0 < z := by
    refine Nat.pos_of_ne_zero ?_
    rintro rfl
    omega
  rw [sprp64_eq_passesBases hlt h64 hfactor hd hodd, passesBases_iff n d z (by decide)]
  simp only [passesBase_iff hn (hdle.trans_lt (show n - 1 < 2 ^ 64 by omega)) hz]

theorem exists_pred_eq_odd_mul_two_pow {n : Nat} (hn : 3 ≤ n) : ∃ d z, n - 1 = d * 2 ^ z ∧ d % 2 = 1 := by
  obtain ⟨z, d, hd, hfactor⟩ := Nat.exists_eq_two_pow_mul_odd (n := n - 1) (by omega)
  exact ⟨d, z, hfactor.trans (mul_comm _ _), Nat.odd_iff.1 hd⟩

/-! ### No false negatives -/

/-- Where 1 has no square roots but 1 and -1, repeated squaring reaches 1 from 1 or by way of -1. -/
theorem eq_one_or_pow_eq_neg_one {R : Type*} [Ring R] [NoZeroDivisors R] {x : R} {z : Nat} (h : x ^ 2 ^ z = 1) :
    x = 1 ∨ ∃ r, r < z ∧ x ^ 2 ^ r = -1 := by
  induction z with
  | zero => exact .inl (by simpa using h)
  | succ z ih =>
    rw [pow_succ, pow_mul, sq_eq_one_iff] at h
    rcases h with h | h
    · rcases ih h with h | ⟨r, hr, h⟩
      · exact .inl h
      · exact .inr ⟨r, by omega, h⟩
    · exact .inr ⟨z, by omega, h⟩

/-- Fermat's little theorem, and square roots of 1 in the field of `p` elements. -/
theorem strongProbablePrime_of_prime {p d z base : Nat} (hp : p.Prime) (hfactor : p - 1 = d * 2 ^ z)
    (hpos : 0 < base) (hlt : base < p) : StrongProbablePrime p d z base := by
  have : Fact p.Prime := ⟨hp⟩
  have hbase : (base : ZMod p) ≠ 0 := by
    rw [Ne, ZMod.natCast_eq_zero_iff]
    exact Nat.not_dvd_of_pos_of_lt hpos hlt
  have hfermat : ((base : ZMod p) ^ d) ^ 2 ^ z = 1 := by
    rw [← pow_mul, ← hfactor]
    exact ZMod.pow_card_sub_one_eq_one hbase
  rcases eq_one_or_pow_eq_neg_one hfermat with h | ⟨r, hr, h⟩
  · left
    have hmod : base ^ d % p = 1 % p := (ZMod.natCast_eq_natCast_iff' _ _ _).1 (by simpa using h)
    rwa [Nat.mod_eq_of_lt hp.one_lt] at hmod
  · refine .inr ⟨r, hr, ?_⟩
    have hmod : base ^ (d * 2 ^ r) % p = (p - 1) % p :=
      (ZMod.natCast_eq_natCast_iff' _ _ _).1 (by simpa [Nat.cast_pred hp.pos, pow_mul] using h)
    rwa [Nat.mod_eq_of_lt (Nat.sub_lt hp.pos one_pos)] at hmod

theorem sprp64_of_prime {n : Nat} (hn : n.Prime) (h64 : n < 2 ^ 64) : sprp64 n = true := by
  rcases hn.eq_two_or_odd with rfl | hodd
  · rfl
  have h3 : 3 ≤ n := by
    have htwo := hn.two_le
    omega
  obtain ⟨d, z, hfactor, hd⟩ := exists_pred_eq_odd_mul_two_pow h3
  refine (sprp64_iff h3 h64 hfactor hd hodd).2 fun base hmem hle => ?_
  have htwo := two_le_of_mem_witnessBases hmem
  have hlt : base < base * base := lt_mul_self htwo
  exact strongProbablePrime_of_prime hn hfactor (by omega) (by omega)

/-! ### Small factors -/

/-- A factor of `n` divides neither 1 nor `n - 1`, but it divides the residues of its own powers. -/
theorem not_strongProbablePrime_of_dvd {n d z p : Nat} (hp : p.Prime) (hdvd : p ∣ n) (hn : 0 < n) (hd : d ≠ 0) :
    ¬ StrongProbablePrime n d z p := by
  have hresidue : ∀ {e}, e ≠ 0 → p ∣ p ^ e % n := fun he => (Nat.dvd_mod_iff hdvd).2 (dvd_pow_self p he)
  rintro (h | ⟨r, -, h⟩)
  · exact hp.not_dvd_one (h ▸ hresidue hd)
  · have hpred : p ∣ n - 1 := h ▸ hresidue (mul_ne_zero hd (by positivity))
    exact hp.not_dvd_one ((Nat.dvd_sub_iff_right hn hdvd).1 hpred)

theorem mem_witnessBases {p : Nat} (hp : p.Prime) (hle : p ≤ 37) : p ∈ witnessBases := by
  interval_cases p <;> revert hp <;> norm_num [witnessBases]

/-- The least factor of a composite has a square of at most the composite, so the loop tests it before it stops. -/
theorem sprp64_of_small_factor {n p : Nat} (h64 : n < 2 ^ 64) (hp : p.Prime) (hle : p ≤ 37) (hdvd : p ∣ n)
    (hne : p ≠ n) : sprp64 n = false := by
  by_cases hsmall : n < 2
  · exact sprp64_of_lt_two hsmall
  have hcomposite : ¬ n.Prime := fun hn => hne ((Nat.prime_dvd_prime_iff_eq hp hn).1 hdvd)
  have hmin : n.minFac.Prime := Nat.minFac_prime (by omega)
  have hsq : n.minFac * n.minFac ≤ n := sq n.minFac ▸ Nat.minFac_sq_le_self (by omega) hcomposite
  have hmem : n.minFac ∈ witnessBases :=
    mem_witnessBases hmin ((Nat.minFac_le_of_dvd hp.two_le hdvd).trans hle)
  rcases Nat.mod_two_eq_zero_or_one n with heven | hodd
  · refine sprp64_of_even (lt_of_le_of_ne (not_lt.1 hsmall) ?_) heven
    rintro rfl
    exact hcomposite Nat.prime_two
  · have h3 : 3 ≤ n := by omega
    obtain ⟨d, z, hfactor, hd⟩ := exists_pred_eq_odd_mul_two_pow h3
    refine Bool.eq_false_iff.2 fun htrue => ?_
    have hbases := (sprp64_iff h3 h64 hfactor hd hodd).1 htrue
    exact not_strongProbablePrime_of_dvd hmin n.minFac_dvd (by omega) (by omega) (hbases _ hmem hsq)

/-! ### The three commands -/

/-- The state a command leaves when it commits `v` to A alone (44_system.md R181). -/
def State.commitA (s : State) (v : Word) : State := (s.setA v).complete

theorem exec_mulmod {s : State} (h : s.n ≠ 0) :
    exec .mulmod s = .next (s.commitA (BitVec.ofNat 64 (s.a.toNat * s.b.toNat % s.n.toNat))) := if_neg h

theorem exec_powmod {s : State} (h : s.n ≠ 0) :
    exec .powmod s = .next (s.commitA (BitVec.ofNat 64 (s.a.toNat ^ s.b.toNat % s.n.toNat))) := by
  rw [← powMod_eq _ _ s.b.isLt]
  exact if_neg h

theorem exec_prime (s : State) : exec .prime s = .next (s.commitA (if sprp64 s.n.toNat then 1 else 0)) := rfl

/-- Settles O31: the square-and-multiply loop is the power, as the exponent has 64 bits. -/
theorem powmodWritesTheExactPower : Obligations.PowmodWritesTheExactPower := fun _ h => exec_powmod h

/-- Settles O33: one clause for each range of N. -/
theorem primeWritesTheVerdict : Obligations.PrimeWritesTheVerdict := by
  intro s
  refine ⟨exec_prime s, sprp64_of_lt_two, ?_, sprp64_of_even, ?_⟩
  · intro h
    rw [h]
    rfl
  · intro d z h3 hfactor hd hodd
    exact sprp64_iff h3 s.n.isLt hfactor hd hodd

/-- Settles O34: a prime passes the strong test to every base below it. -/
theorem primeAcceptsEveryPrime : Obligations.PrimeAcceptsEveryPrime := by
  intro s h
  rw [exec_prime, sprp64_of_prime h s.n.isLt]
  rfl

/-- Settles O35: the least factor of such a composite is a base to which it fails the strong test. -/
theorem primeRejectsSmallFactors : Obligations.PrimeRejectsSmallFactors := by
  intro s h
  have hverdict : sprp64 s.n.toNat = false := by
    rcases h with hsmall | ⟨p, hp, hle, hdvd, hne⟩
    · exact sprp64_of_lt_two hsmall
    · exact sprp64_of_small_factor s.n.isLt hp hle hdvd hne
  rw [exec_prime, hverdict]
  rfl

/-- Settles O30: the residue is below N, a 64-bit number. -/
theorem mulmodWritesTheExactResidue : Obligations.MulmodWritesTheExactResidue := by
  intro s h
  have hpos : 0 < s.n.toNat := BitVec.toNat_pos_of_ne_zero h
  exact ⟨exec_mulmod h, (Nat.mod_lt _ hpos).trans s.n.isLt⟩

end Sys2Proof.Machine
end

section
/-! PROOFS. The system family (44_system.md): the ENGINE's turn as `exec` of the decoded command, the end of every
command, NOP, and issue through CMD. -/

namespace Sys2Proof.Machine

/-! ### The ENGINE's turn and the end of every command -/

theorem engineTurn_of_decode {s : State} {w : CmdWord} {i : Instr} (hc : s.cur = some w) (hd : decode w = .ok i) :
    engineTurn s = exec i s := by
  simp [engineTurn, hc, hd]

/-- Settles O5: taking the first turn leaves CUR as it is, so the ENGINE decodes the same word. -/
theorem engineTurnRunsTheDecodedCommand : Obligations.EngineTurnRunsTheDecodedCommand := by
  intro s w i hnext hc hd
  have hcur : s.taken.cur = some w := hc
  rw [step_engine hnext, engineTurn_of_decode hcur hd]

/-- Every command, by a fault or by a commit, ends in a completion (44_system.md R181). -/
theorem exec_eq_complete (i : Instr) (s : State) : ∃ u : State, exec i s = .next u.complete := by
  rcases exec_cases i s with ⟨e, -, hx⟩ | ⟨u, hx, -⟩
  · exact ⟨_, hx.trans (takeFault_eq e s)⟩
  · exact ⟨u, hx.trans (commit_eq u)⟩

@[simp] theorem State.complete_busy (s : State) : s.complete.busy = false := rfl

/-- Settles O8: a completion clears CUR and BUSY and sets DONE, whatever it completes. -/
theorem everyCommandEndsCompleted : Obligations.EveryCommandEndsCompleted := by
  intro i s
  obtain ⟨u, hx⟩ := exec_eq_complete i s
  exact ⟨u.complete, hx, u.complete_cur, u.complete_busy, u.complete_done⟩

/-- Settles O11: NOP commits the state it is given. -/
theorem nopOnlyCompletes : Obligations.NopOnlyCompletes := commit_eq

/-! ### CMD -/

theorem State.busWrite_cmd (s : State) {n : Nat} (hn : n = 4 ∨ n = 8) (v : Word) :
    s.busWrite 0x020 n v = s.writeCmd 0x020 (v.extractLsb' 0 32) := by
  obtain ⟨lane, hl, hx⟩ := s.busWrite_wide .cmd hn v
  rw [← BitVec.setWidth_eq_extractLsb' (by decide)]
  exact hx.trans (if_neg hl)

section
variable {s : State}

theorem State.writeCmd_of_busy (hb : s.busy = true) (o : Nat) (w : CmdWord) : s.writeCmd o w = s.dropBusy o :=
  if_pos hb

theorem State.writeCmd_of_err (hb : s.busy = false) (he : s.err = true) (o : Nat) (w : CmdWord) :
    s.writeCmd o w = s := by
  simp [State.writeCmd, hb, he]

theorem State.writeCmd_of_idle (hb : s.busy = false) (he : s.err = false) (o : Nat) (w : CmdWord) :
    s.writeCmd o w = s.issue w := by
  simp [State.writeCmd, hb, he]

end

@[simp] theorem State.issue_busy (s : State) (w : CmdWord) : (s.issue w).busy = true := rfl

/-- CMD is in no command's write set (30_encoding.md R93). -/
theorem cmd_not_mem_writes (i : Instr) : .cmd ∉ i.writes := by
  cases i with
  | rd8 d | rd4 d | rd3 d => cases d <;> simp [Instr.writes, dstReg]
  | _ => decide

/-- CMD reads 0 in every state, in flight or not (10_state.md R30). -/
theorem State.readValue_cmd (s : State) : s.readValue .cmd = 0 :=
  State.readValue_stable fun i _ => ⟨cmd_not_mem_writes i, nofun⟩

theorem Lane.pick_zero (lane : Lane) : lane.pick 0 = 0 := by cases lane <;> decide

/-- A read of CMD, whole or of either half, returns 0 (10_state.md R30). -/
theorem State.busRead_cmd (s : State) :
    (s.busRead 0x020 8).hostData = 0 ∧ (s.busRead 0x020 4).hostData = 0 ∧ (s.busRead 0x024 4).hostData = 0 := by
  have hfull := s.busRead_full .cmd
  have hlow := s.busRead_low .cmd
  have hhigh := s.busRead_high .cmd
  rw [s.readValue_cmd] at hfull
  rw [s.readValue_cmd, Lane.pick_zero] at hlow hhigh
  exact ⟨congrArg State.hostData hfull, congrArg State.hostData hlow, congrArg State.hostData hhigh⟩

/-- Settles O7: a write at 0x020 reaches `writeCmd` with the low 32 bits, and one at 0x024 nothing. -/
theorem cmdWriteIssuesOrIsDropped : Obligations.CmdWriteIssuesOrIsDropped := by
  intro s n v hn
  obtain ⟨hfull, hlow, hhigh⟩ := s.busRead_cmd
  rw [s.busWrite_cmd hn]
  refine ⟨fun hb => ?_, fun hb he => ?_, fun hb he => ?_, s.busWrite_high .cmd v, ?_, hhigh⟩
  · exact State.writeCmd_of_busy hb _ _
  · exact State.writeCmd_of_err hb he _ _
  · rw [State.writeCmd_of_idle hb he]
    exact ⟨rfl, s.issue_busy _⟩
  · rcases hn with rfl | rfl
    · exact hlow
    · exact hfull

end Sys2Proof.Machine
end

section
/-! PROOFS. The exceptions family (60_exceptions.md): the command faults, the busy writes dropped with EBUSY, the
interrupt output, that no step stops the machine, and everything a step can do to the error record. -/

namespace Sys2Proof.Machine

/-! ### Taking a command fault -/

theorem State.curWord_of_cur {s : State} {w : CmdWord} (h : s.cur = some w) : s.curWord = w := by
  rw [State.curWord, h, Option.getD_some]

theorem engineTurn_of_reject {s : State} {w : CmdWord} {r : Reject} (hc : s.cur = some w) (hd : decode w = .error r) :
    engineTurn s = takeFault .illegal s := by
  simp [engineTurn, hc, hd]

/-- A guarded command whose guard holds records the error with its own word and completes (60_exceptions.md R196). -/
theorem guard_faults {c : Prop} [Decidable c] (hc : c) (e : ErrCode) (s u : State) :
    (if c then takeFault e s else commit u) = .next (s.recordError e (s.curWord.setWidth 64)).complete :=
  (if_pos hc).trans (takeFault_eq e s)

theorem readInto_outside {width : Nat} {s : State} (h : s.off.toNat + width > s.params.kmemSize) (d : Dst) (v : Word) :
    readInto d width v s = .next (s.recordError .bounds (s.curWord.setWidth 64)).complete :=
  guard_faults h .bounds s _

theorem State.keyOutside_of_gt {s : State} (h : s.koff.toNat + s.len.toNat > s.params.kmemSize) : s.keyOutside = true :=
  decide_eq_true h

/-- Every code but EBUSY's is the code of a command fault (60_exceptions.md R198). -/
theorem ErrCode.code_mem_of_ne_busy {e : ErrCode} (he : e ≠ .busy) :
    e.code ∈ ([0x01, 0x02, 0x04, 0x05] : List (BitVec 8)) := by
  cases e with
  | busy => exact absurd rfl he
  | illegal | bounds | modZero | seq => decide

/-- Settles O10: a command takes a fault other than EBUSY, or commits a state that differs in A, B and the hash unit. -/
theorem commandFaultWritesOnlyTheRecord : Obligations.CommandFaultWritesOnlyTheRecord := by
  intro i s t h
  rcases exec_next_cases h with ⟨e, he, rfl⟩ | ⟨u, hu, rfl⟩
  · exact .inr ⟨e.code, ErrCode.code_mem_of_ne_busy he, rfl⟩
  · exact .inl ⟨u.a, u.b, u.hash, congrArg State.complete hu⟩

/-- Settles O6: the ENGINE faults before any other check, with the word CUR holds. -/
theorem illegalWordFaultsWithEillegal : Obligations.IllegalWordFaultsWithEillegal := by
  intro s w r hnext hc hd
  have hcur : s.taken.cur = some w := hc
  rw [step_engine hnext, engineTurn_of_reject hcur hd, takeFault_eq, State.curWord_of_cur hcur]
  rfl

/-- Settles O19: the bound of each command is the guard of its fault. -/
theorem keyOutsideKmemFaultsWithEbounds : Obligations.KeyOutsideKmemFaultsWithEbounds := by
  intro s d k
  refine ⟨fun h => readInto_outside h d _, fun h => readInto_outside h d _, fun hk h => ?_, fun h => ?_⟩
  · rw [exec_rd3 d hk]
    exact readInto_outside h d _
  · exact ⟨guard_faults (State.keyOutside_of_gt h) .bounds s _, guard_faults (State.keyOutside_of_gt h) .bounds s _⟩

/-- Settles O27: the sequence condition of each step command is the guard of its fault. -/
theorem hashStepOutOfSequenceFaultsWithEseq : Obligations.HashStepOutOfSequenceFaultsWithEseq := fun s =>
  ⟨fun h => guard_faults h .seq s _, fun h => guard_faults h .seq s _, fun h => guard_faults h .seq s _,
    fun h => guard_faults h .seq s _⟩

/-- Settles O32: N = 0 is the guard of both faults. -/
theorem zeroModulusFaultsWithEmodzero : Obligations.ZeroModulusFaultsWithEmodzero := fun s h =>
  ⟨guard_faults h .modZero s _, guard_faults h .modZero s _⟩

/-! ### Writes dropped while a command is in flight -/

section
variable {s : State}

theorem State.writeReg_input_of_busy {r : Reg} (hb : s.busy = true) (hr : r.isInput = true) (o : Nat) (lane : Lane)
    (v : Word) : s.writeReg o r lane v = s.dropBusy o := by
  have h : s.writeReg o r lane v = s.writeInput o r lane v := by
    cases r with
    | off | a | b | n | s0 | s1 | s2 | s3 | seed | koff | len => rfl
    | _ => cases hr
  rw [h]
  exact if_pos hb

theorem State.busWrite_kmem_of_busy {x n : Nat} (hb : s.busy = true) (hn : kmemWidth n = true)
    (hx : x < s.params.kmemSize) (ha : x % n = 0) (v : Word) :
    s.busWrite (0x10000 + x) n v = s.dropBusy (0x10000 + x) := by
  have h := kmemSize_le s.params
  rw [s.busWrite_eq (by omega), State.hostWrite, target_kmem_of _ hn hx ha]
  exact if_pos hb

end

/-- Settles O42: each of these writes reaches `dropBusy` with its own offset, and the upper half of CMD nothing. -/
theorem busyWritesAreDroppedWithEbusy : Obligations.BusyWritesAreDroppedWithEbusy := by
  intro s v hb dropped
  refine ⟨fun r hr => ?_, ⟨?_, ?_, s.busWrite_high .cmd v⟩, fun x n hn hx ha => ?_⟩
  · rw [s.busWrite_full, s.busWrite_low, s.busWrite_high]
    simp only [State.writeReg_input_of_busy hb hr]
    exact ⟨rfl, rfl, rfl⟩
  · rw [s.busWrite_cmd (.inr rfl)]
    exact State.writeCmd_of_busy hb _ _
  · rw [s.busWrite_cmd (.inl rfl)]
    exact State.writeCmd_of_busy hb _ _
  · exact State.busWrite_kmem_of_busy hb ((kmemWidth_iff n).2 hn) hx ha v

/-! ### The interrupt output -/

section
variable (s : State)

theorem State.status_getLsbD_done : (s.regValue .status).getLsbD 1 = s.done := by
  simp only [State.regValue, State.statusWord, State.statusWith, BitVec.getLsbD_append, BitVec.getLsbD_ofBool]
  rfl

theorem State.status_getLsbD_err : (s.regValue .status).getLsbD 2 = s.err := by
  simp only [State.regValue, State.statusWord, State.statusWith, BitVec.getLsbD_append, BitVec.getLsbD_ofBool]
  rfl

theorem State.ctrl_getLsbD_ieDone : (s.regValue .ctrl).getLsbD 0 = s.ieDone := by
  simp only [State.regValue, State.ctrlWord, BitVec.getLsbD_append, BitVec.getLsbD_ofBool]
  rfl

theorem State.ctrl_getLsbD_ieErr : (s.regValue .ctrl).getLsbD 1 = s.ieErr := by
  simp only [State.regValue, State.ctrlWord, BitVec.getLsbD_append, BitVec.getLsbD_ofBool]
  rfl

end

/-- Settles O51: the four bits are DONE, ERR and their enables. -/
theorem interruptFollowsStatusAndCtrl : Obligations.InterruptFollowsStatusAndCtrl := by
  intro s
  rw [s.status_getLsbD_done, s.status_getLsbD_err, s.ctrl_getLsbD_ieDone, s.ctrl_getLsbD_ieErr, State.irq]

/-! ### No step stops the machine -/

theorem engineTurn_next (s : State) : ∃ t, engineTurn s = .next t := by
  rcases engineTurn_cases s with ⟨-, hx⟩ | ⟨w, -, ⟨e, -, hx⟩ | ⟨i, -, hx⟩⟩
  · exact ⟨s, hx⟩
  · exact ⟨_, hx.trans (takeFault_eq e s)⟩
  · obtain ⟨u, hu⟩ := exec_eq_complete i s
    exact ⟨u.complete, hx.trans hu⟩

/-- Settles O9: each of the three kinds of step has a next state. -/
theorem stepNeverStops : Obligations.StepNeverStops := by
  intro s
  rcases step_cases s with ⟨-, hx⟩ | ⟨acc, turns, -, hx⟩ | ⟨turns, -, hx⟩
  · rw [hx]
    exact engineTurn_next s.taken
  · exact ⟨_, hx⟩
  · exact ⟨_, hx⟩

/-! ### What a step can do to the error record -/

/-- The first turn is a host write of 4 or 8 bytes at window offset `o` with bit 2 set: of the clear bit of STATUS
(10_state.md R29) or of SRST (R27). -/
def State.WritesBit2 (s : State) (o : Nat) : Prop :=
  ∃ n v turns, (n = 4 ∨ n = 8) ∧ v.getLsbD 2 = true ∧
    s.agenda = .host (.write (s.params.blockBase + o) n v) :: turns

/-- `t` holds the error record of `s`. -/
structure State.SameError (s t : State) : Prop where
  err     : t.err = s.err
  errcode : t.errcode = s.errcode
  errinfo : t.errinfo = s.errinfo

/-- The five things a step from `s` to `t` can do to the error record (60_exceptions.md R190, R206). -/
inductive State.ErrorStep (s t : State) : Prop where
  /-- The record stands. -/
  | keeps (h : s.SameError t)
  /-- An error is raised, and an earlier one stands (R190). -/
  | raises (e : ErrCode) (info : Word) (h : (s.recordError e info).SameError t)
  /-- The host clears the error through STATUS (R206). -/
  | acknowledges (hw : s.WritesBit2 0x018) (herr : t.err = false) (hcode : t.errcode = 0) (hinfo : t.errinfo = s.errinfo)
  /-- The host resets the block through CTRL (70_reset_and_hazards.md R222). -/
  | softResets (hw : s.WritesBit2 0x010) (ht : t = s.taken.softReset)
  /-- Power-on reset (70_reset_and_hazards.md R220). -/
  | powersOn (hag : ∃ turns, s.agenda = .powerOn :: turns) (ht : t = s.taken.powerOn)

theorem engineTurn_errorStep {s t : State} (h : engineTurn s.taken = .next t) : s.ErrorStep t := by
  rcases engineTurn_next_cases h with ⟨-, rfl⟩ | ⟨e, -, rfl⟩ | ⟨u, hu, rfl⟩
  · exact .keeps ⟨rfl, rfl, rfl⟩
  · exact .raises e _ ⟨rfl, rfl, rfl⟩
  · rw [hu]
    exact .keeps ⟨rfl, rfl, rfl⟩

section
variable {s : State} {n : Nat} {v : Word} {turns : List Turn} (hn : n = 4 ∨ n = 8)
include hn

theorem State.writeCtrl_errorStep (hag : s.agenda = .host (.write (s.params.blockBase + 0x010) n v) :: turns) :
    s.ErrorStep (s.taken.writeCtrl v) := by
  cases hv : v.getLsbD 2 with
  | true => exact .softResets ⟨n, v, turns, hn, hv, hag⟩ (if_pos hv)
  | false =>
    rw [State.writeCtrl, if_neg (ne_true_of_eq_false hv)]
    exact .keeps ⟨rfl, rfl, rfl⟩

theorem State.writeStatus_errorStep (hag : s.agenda = .host (.write (s.params.blockBase + 0x018) n v) :: turns) :
    s.ErrorStep (s.taken.writeStatus v) := by
  cases hv : v.getLsbD 2 with
  | true => exact .acknowledges ⟨n, v, turns, hn, hv, hag⟩ (by simp [hv]) (by simp [hv]) rfl
  | false =>
    refine .keeps ⟨?_, ?_, rfl⟩
    · rw [State.writeStatus_err, hv, Bool.not_false, Bool.and_true]
      rfl
    · rw [State.writeStatus_errcode, hv, if_neg Bool.false_ne_true]
      rfl

end

theorem State.hostAccess_errorStep {s : State} {acc : Access} {turns : List Turn} (hag : s.agenda = .host acc :: turns) :
    s.ErrorStep (s.taken.hostAccess acc) := by
  rcases s.taken.hostAccess_cases acc with ⟨k, v, hx⟩ | ⟨addr, n, v, rfl, hw⟩
  · rw [hx]
    exact .keeps ⟨rfl, rfl, rfl⟩
  rcases hw with ⟨rfl, hn, hx⟩ | ⟨rfl, hn, hx⟩ | ⟨-, o, -, -, hx⟩ | ⟨-, -, -, -, hx⟩ | ⟨-, q, x, -, hx⟩ | ⟨-, i, m, -, hx⟩
  · rw [hx]
    exact State.writeCtrl_errorStep hn hag
  · rw [hx]
    exact State.writeStatus_errorStep hn hag
  · rw [hx]
    exact .raises .busy (busyInfo o) ⟨rfl, rfl, rfl⟩
  · rw [hx]
    exact .keeps ⟨rfl, rfl, rfl⟩
  · rw [hx]
    exact .keeps ⟨State.setReg_err _ q x, State.setReg_errcode _ q x, State.setReg_errinfo _ q x⟩
  · rw [hx]
    exact .keeps ⟨rfl, rfl, rfl⟩

theorem step_errorStep {s t : State} (h : step s = .next t) : s.ErrorStep t := by
  rcases step_cases s with ⟨-, hx⟩ | ⟨acc, turns, hag, hx⟩ | ⟨turns, hag, hx⟩
  · exact engineTurn_errorStep (hx.symm.trans h)
  · rw [hx] at h
    cases h
    exact State.hostAccess_errorStep hag
  · rw [hx] at h
    cases h
    exact .powersOn ⟨turns, hag⟩ rfl

/-- Raising an error sets ERR, and keeps the code and the information of an error already there. -/
theorem State.SameError.of_recordError {s t : State} {e : ErrCode} {info : Word}
    (h : (s.recordError e info).SameError t) :
    t.err = true ∧ (s.err = true → t.errcode = s.errcode ∧ t.errinfo = s.errinfo) :=
  ⟨h.err, fun he => ⟨h.errcode.trans (if_pos he), h.errinfo.trans (if_pos he)⟩⟩

/-- Settles O52: one clause at a time, for each thing a step can do to the record. -/
theorem firstErrorWinsUntilCleared : Obligations.FirstErrorWinsUntilCleared := by
  intro s t h poweredOn wrote softReset
  cases step_errorStep h with
  | keeps hsame =>
    exact ⟨fun _ _ => ⟨hsame.errcode, hsame.errinfo⟩,
      fun hs ht => absurd (hsame.err.trans hs) (ne_true_of_eq_false ht),
      fun _ _ => ⟨.inl hsame.errcode, .inl hsame.errinfo⟩⟩
  | raises e info hrec =>
    obtain ⟨herr, hfirst⟩ := hrec.of_recordError
    exact ⟨fun hs _ => hfirst hs, fun _ ht => absurd herr (ne_true_of_eq_false ht),
      fun _ ht => absurd herr (ne_true_of_eq_false ht)⟩
  | acknowledges hw herr hcode hinfo =>
    exact ⟨fun _ ht => absurd ht (ne_true_of_eq_false herr), fun _ _ => .inr (.inr ⟨hw, hcode, hinfo⟩),
      fun _ _ => ⟨.inr hcode, .inl hinfo⟩⟩
  | softResets hw ht =>
    have hcleared : State.reset.SameError t := ht ▸ ⟨rfl, rfl, rfl⟩
    exact ⟨fun _ hset => absurd hset (ne_true_of_eq_false hcleared.err), fun _ _ => .inr (.inl ⟨hw, ht⟩),
      fun _ _ => ⟨.inr hcleared.errcode, .inr ⟨hcleared.errinfo, .inr ⟨hw, ht⟩⟩⟩⟩
  | powersOn hag ht =>
    have hcleared : State.reset.SameError t := ht ▸ ⟨rfl, rfl, rfl⟩
    exact ⟨fun _ hset => absurd hset (ne_true_of_eq_false hcleared.err), fun _ _ => .inl ⟨hag, ht⟩,
      fun _ _ => ⟨.inr hcleared.errcode, .inr ⟨hcleared.errinfo, .inl ⟨hag, ht⟩⟩⟩⟩

end Sys2Proof.Machine
end

section
/-! PROOFS. Reset and hazards (70_reset_and_hazards.md): the two resets, reads of the in-flight command's write set, and
that a command in flight ends. -/

namespace Sys2Proof.Machine

/-! ### The two resets -/

/-- `t` is the reset state but for the parameters, which are those of `s`, KMEM, and the model's bookkeeping: what the
two resets have in common (70_reset_and_hazards.md R220, R222). -/
def State.ResetsTo (s t : State) : Prop :=
  t = { State.reset with
    params := s.params
    kmem := t.kmem
    powerOns := t.powerOns
    draws := t.draws
    agenda := t.agenda
    hostData := t.hostData }

theorem State.softReset_resetsTo (s : State) : s.ResetsTo s.softReset := rfl

theorem State.powerOn_resetsTo (s : State) : s.ResetsTo s.powerOn := rfl

section
variable {s t : State} (h : s.ResetsTo t)
include h

theorem State.ResetsTo.regValue (r : Reg) :
    t.regValue r = if r = .cfg then s.regValue .cfg else State.reset.regValue r := by
  rw [h]
  cases r <;> rfl

theorem State.ResetsTo.params : t.params = s.params := by rw [h]

theorem State.ResetsTo.cur : t.cur = none := by
  rw [h]
  rfl

theorem State.ResetsTo.irq : t.irq = false := by
  rw [h]
  rfl

end

theorem State.kmemByte_powerOn (s : State) (x : Nat) : s.powerOn.kmemByte x = Config.powerOnByte (s.powerOns + 1) x := rfl

/-- Settles O55: the write reaches CTRL, whose bit 2 asks for the soft reset whatever the other bits. -/
theorem softResetRestoresRegistersAndKeepsKmem : Obligations.SoftResetRestoresRegistersAndKeepsKmem := by
  intro s v n hn hv
  have hx : s.busWrite 0x010 n v = s.softReset := (s.busWrite_ctrl hn v).trans (if_pos hv)
  have hreset := s.softReset_resetsTo
  rw [hx]
  exact ⟨hreset.regValue, hreset.regValue .ctrl, hreset.regValue .status, hreset.cur, hreset.irq, hreset.params,
    State.kmemByte_congr s.softReset_kmem s.softReset_powerOns⟩

/-- Settles O56: the turn is taken, and the block resets with the next draw of KMEM. -/
theorem powerOnResetsAndRedrawsKmem : Obligations.PowerOnResetsAndRedrawsKmem := by
  intro s turns hag
  have hreset := s.taken.powerOn_resetsTo
  have hturns : s.taken.agenda = turns := congrArg List.tail hag
  exact ⟨s.taken.powerOn, step_powerOn hag, hreset.regValue, hreset.cur, hreset.irq, hturns, hreset.params,
    s.taken.kmemByte_powerOn⟩

/-! ### STATUS with any HPHASE bits -/

section
variable (s : State) (p q : BitVec 2)

/-- STATUS with given HPHASE bits, as a number: its fields at their weights (10_state.md R28). -/
theorem State.statusWith_toNat :
    (s.statusWith p).toNat =
      s.errcode.toNat * 256 + p.toNat * 16 + s.err.toNat * 4 + s.done.toNat * 2 + s.busy.toNat := by
  rw [State.statusWith]
  simp only [toNat_append_eq, BitVec.toNat_ofBool, BitVec.ofNat_eq_ofNat, BitVec.toNat_ofNat]
  omega

theorem State.statusWith_toNat_lt : (s.statusWith p).toNat < 2 ^ 16 := by
  have hcode := s.errcode.isLt
  have hp := p.isLt
  have herr := s.err.toNat_le
  have hdone := s.done.toNat_le
  have hbusy := s.busy.toNat_le
  rw [s.statusWith_toNat]
  omega

/-- All of STATUS lies in its low half. -/
theorem State.pick_low_statusWith : Lane.low.pick (s.statusWith p) = s.statusWith p := by
  have h := s.statusWith_toNat_lt p
  apply BitVec.eq_of_toNat_eq
  rw [Lane.pick, BitVec.toNat_setWidth, BitVec.extractLsb'_toNat, Nat.shiftRight_zero]
  omega

theorem State.pick_high_statusWith : Lane.high.pick (s.statusWith p) = 0 := by
  have h := s.statusWith_toNat_lt p
  apply BitVec.eq_of_toNat_eq
  rw [Lane.pick, BitVec.toNat_setWidth, BitVec.extractLsb'_toNat, Nat.shiftRight_eq_div_pow]
  simp only [BitVec.ofNat_eq_ofNat, BitVec.toNat_ofNat]
  omega

theorem State.statusWith_phase : (s.statusWith p).extractLsb' 4 2 = p := by
  have hp := p.isLt
  have herr := s.err.toNat_le
  have hdone := s.done.toNat_le
  have hbusy := s.busy.toNat_le
  apply BitVec.eq_of_toNat_eq
  rw [BitVec.extractLsb'_toNat, Nat.shiftRight_eq_div_pow, s.statusWith_toNat]
  omega

/-- The HPHASE bits are bits 5:4, and no other bit of STATUS depends on them. -/
theorem State.statusWith_mask : s.statusWith p &&& ~~~(0x30 : Word) = s.statusWith q &&& ~~~(0x30 : Word) := by
  apply BitVec.eq_of_getLsbD_eq
  intro i hi
  by_cases hphase : i = 4 ∨ i = 5
  · rcases hphase with rfl | rfl <;> simp
  · have hbit : (s.statusWith p).getLsbD i = (s.statusWith q).getLsbD i := by
      simp only [State.statusWith, BitVec.getLsbD_append]
      split_ifs <;> try rfl
      -- What is left is the branch of the HPHASE bits, where `i` is 4 or 5.
      omega
    rw [BitVec.getLsbD_and, BitVec.getLsbD_and, hbit]

end

/-! ### Reads while a command is in flight -/

theorem State.inFlight_of_decode {s : State} {w : CmdWord} {i : Instr} (hc : s.cur = some w) (hd : decode w = .ok i) :
    s.inFlight = some i := by
  simp [State.inFlight, hc, decode?, hd]

/-- STATUS is in no command's write set: of its fields a command writes HPHASE alone, which is no register of the map
(30_encoding.md R93). -/
theorem status_not_mem_writes (i : Instr) : .status ∉ i.writes := by
  cases i with
  | rd8 d | rd4 d | rd3 d => cases d <;> simp [Instr.writes, dstReg]
  | _ => decide

theorem State.unstable_status (s : State) : s.unstable .status = false :=
  s.unstable_eq_false fun i => by simp [status_not_mem_writes i]

/-- STATUS reads as it is but for its HPHASE bits, in flight or not. -/
theorem State.readValue_status (s : State) : ∃ p, s.readValue .status = s.statusWith p := by
  rw [State.readValue, if_neg (ne_true_of_eq_false s.unstable_status)]
  split
  · exact ⟨_, rfl⟩
  · exact ⟨s.hash.phase.bits, rfl⟩

section
variable {s : State} {i : Instr} (hi : s.inFlight = some i)
include hi

/-- A read in the write set draws a free value and returns it (70_reset_and_hazards.md R230). -/
theorem State.read_of_mem_writes {r : Reg} (hr : r ∈ i.writes) :
    s.readDraws r = true ∧ s.readValue r = Config.unspecified s.draws := by
  have hu : s.unstable r = true := by simp [State.unstable, hi, hr]
  exact ⟨by rw [State.readDraws, hu, Bool.true_or], if_pos hu⟩

/-- While HPHASE is being written a read of STATUS draws its bits 5:4 (70_reset_and_hazards.md R230). -/
theorem State.read_status_of_writesPhase (hp : i.writesPhase = true) :
    s.readDraws .status = true ∧
      s.readValue .status = s.statusWith ((Config.unspecified s.draws).extractLsb' 4 2) := by
  have hphase : s.phaseUnstable = true := by simp [State.phaseUnstable, hi, hp]
  refine ⟨by simp [State.readDraws, hphase], ?_⟩
  rw [State.readValue, if_neg (ne_true_of_eq_false s.unstable_status), if_pos ⟨rfl, hphase⟩]

end

/-- What the three reads of STATUS return, given the word it reads as: its low half is the whole, and its high half 0. -/
theorem State.busRead_status {s : State} {p : BitVec 2} (h : s.readValue .status = s.statusWith p) :
    (s.busRead 0x018 8).hostData = s.statusWith p ∧ (s.busRead 0x018 4).hostData = s.statusWith p ∧
      (s.busRead 0x01C 4).hostData = 0 := by
  have hfull := congrArg State.hostData (s.busRead_full .status)
  have hlow := congrArg State.hostData (s.busRead_low .status)
  have hhigh := congrArg State.hostData (s.busRead_high .status)
  rw [State.answer_hostData, h] at hfull hlow hhigh
  exact ⟨hfull, hlow.trans (s.pick_low_statusWith p), hhigh.trans (s.pick_high_statusWith p)⟩

/-- Every read of a register that draws counts one draw, whole or of either half. -/
theorem State.busRead_draws {s : State} {r : Reg} (h : s.readDraws r = true) :
    (s.busRead r.offset 8).draws = s.draws + 1 ∧ (s.busRead r.offset 4).draws = s.draws + 1 ∧
      (s.busRead (r.offset + 4) 4).draws = s.draws + 1 := by
  rw [s.busRead_full, s.busRead_low, s.busRead_high, if_pos h]
  exact ⟨rfl, rfl, rfl⟩

/-- Settles O41: a register of the write set reads as the free value, and STATUS as itself with some HPHASE bits, the
free value's while HPHASE is written. -/
theorem writeSetReadsAreUnspecifiedWhileBusy : Obligations.WriteSetReadsAreUnspecifiedWhileBusy := by
  intro s w i hc hd drawn free
  have hi := State.inFlight_of_decode hc hd
  obtain ⟨p, hp⟩ := s.readValue_status
  obtain ⟨hfull, hlow, hhigh⟩ := State.busRead_status hp
  refine ⟨fun r hr => ?_, ?_, ?_, hhigh, fun hphase => ?_⟩
  · obtain ⟨hdraws, hvalue⟩ := State.read_of_mem_writes hi hr
    rw [s.busRead_full, s.busRead_low, s.busRead_high, if_pos hdraws, hvalue, Lane.pick_low, Lane.pick_high]
    exact ⟨rfl, rfl, rfl⟩
  · rw [hfull]
    exact s.statusWith_mask p _
  · rw [hlow]
    exact s.statusWith_mask p _
  · obtain ⟨hdraws, hvalue⟩ := State.read_status_of_writesPhase hi hphase
    obtain ⟨hfull', hlow', -⟩ := State.busRead_status hvalue
    rw [hfull', hlow']
    exact ⟨s.statusWith_phase _, s.statusWith_phase _, State.busRead_draws hdraws⟩

/-! ### A command in flight ends -/

theorem State.writeCtrl_agenda (s : State) (v : Word) : (s.writeCtrl v).agenda = s.agenda := by
  unfold State.writeCtrl
  split <;> rfl

/-- No host access places or takes a turn. -/
theorem State.hostAccess_agenda (s : State) (acc : Access) : (s.hostAccess acc).agenda = s.agenda := by
  rcases s.hostAccess_cases acc with ⟨k, v, hx⟩ | ⟨addr, bytes, v, -, hw⟩
  · rw [hx]
  rcases hw with ⟨-, -, hx⟩ | ⟨-, -, hx⟩ | ⟨-, o, -, -, hx⟩ | ⟨-, -, -, -, hx⟩ | ⟨-, q, x, -, hx⟩ | ⟨-, i, n, -, hx⟩
  · rw [hx, s.writeCtrl_agenda]
  · rw [hx, State.writeStatus_agenda]
  · rw [hx, State.dropBusy, State.recordError_agenda]
  · rw [hx, State.issue_agenda]
  · rw [hx, State.setReg_agenda]
  · rw [hx, State.storeKmem_agenda]

/-- A step ends the command in flight unless it is a host access, which uses up a turn. -/
theorem step_ends_or_takes_host_turn {s : State} (hs : s.busy = true) :
    ∃ t, step s = .next t ∧ (t.busy = false ∨ ∃ acc, s.agenda = .host acc :: t.agenda) := by
  rcases step_cases s with ⟨-, hx⟩ | ⟨acc, turns, hag, hx⟩ | ⟨turns, -, hx⟩
  · obtain ⟨t, ht⟩ := engineTurn_next s.taken
    exact ⟨t, hx.trans ht, .inl (engineTurn_next_busy (s := s.taken) hs ht)⟩
  · have hturns : (s.taken.hostAccess acc).agenda = turns :=
      (s.taken.hostAccess_agenda acc).trans (congrArg List.tail hag)
    exact ⟨_, hx, .inr ⟨acc, hturns.symm ▸ hag⟩⟩
  · exact ⟨_, hx, .inl rfl⟩

theorem run_succ {s t : State} (h : step s = .next t) (k : Nat) :
    Host.Core.run Sys2Proof.core (k + 1) s = Host.Core.run Sys2Proof.core k t := by
  have hcore : Sys2Proof.core.step s = .next t := h
  simp only [Host.Core.run, hcore]

/-- Settles O57, by induction on the turns placed: only a host turn leaves the command in flight. -/
theorem commandEndsWithinTheAgenda : Obligations.CommandEndsWithinTheAgenda := by
  intro s hs
  induction hag : s.agenda generalizing s with
  | nil =>
    obtain ⟨t, hst, hend | ⟨acc, hturn⟩⟩ := step_ends_or_takes_host_turn hs
    · exact ⟨1, t, by simp, run_succ hst 0, hend⟩
    · cases hag.symm.trans hturn
  | cons turn turns ih =>
    obtain ⟨t, hst, hend | ⟨acc, hturn⟩⟩ := step_ends_or_takes_host_turn hs
    · exact ⟨1, t, by simp, run_succ hst 0, hend⟩
    · obtain ⟨-, hrest⟩ := List.cons.inj (hag.symm.trans hturn)
      cases ht : t.busy with
      | false => exact ⟨1, t, by simp, run_succ hst 0, ht⟩
      | true =>
        obtain ⟨k, u, hk, hrun, hu⟩ := ih t ht hrest.symm
        exact ⟨k + 1, u, Nat.succ_le_succ hk, (run_succ hst k).trans hrun, hu⟩

end Sys2Proof.Machine
end
